-- ==== Sys2Proof/Word.lean ====
section
/-! DEFINITION. The byte of the panel loop, and the fixed-size tables of like records.

A table of n like things (256 channels, 16 groups, 8 lines) is a `Vector`; `Table.mapIdx` rebuilds
one record by record through a list, so that Lean's kernel can evaluate it. -/

namespace Sys2Proof

/-- One byte of a frame (R152: eight data bits of a character). -/
abbrev Byte := BitVec 8

/-- The byte that holds the low eight bits of a number. -/
def byteOf (n : Nat) : Byte := BitVec.ofNat 8 n

/-- Every record of a table anew, from its place in the table and its old value. -/
def Table.mapIdx {α β : Type} {n : Nat} (f : Nat → α → β) (v : Vector α n) : Vector β n :=
  ⟨⟨v.toList.zipIdx.map fun p => f p.2 p.1⟩, by simp⟩

@[simp] theorem Table.mapIdx_getElem {α β : Type} {n : Nat} (f : Nat → α → β) (v : Vector α n)
    (i : Nat) (h : i < n) : (Table.mapIdx f v)[i] = f i v[i] := by
  simp [Table.mapIdx]

end Sys2Proof
end

