-- ==== Sys2Proof/Syntax.lean ====
section
/-! DEFINITION. The commands of the block: one constructor per row of spec/opcode_table.json.

A frame row carries the addresses and the body bytes of the frame that arrives; a COMMAND row
carries the frame's addresses and tag and ALL the parameter bytes after the command code (so a body
of the wrong length, or a parameter out of range, is a form of the row); a sensing row carries the
currents at the lamp sense inputs at its instant; a byte's row carries the character that brings it. -/

namespace Sys2Proof

/-- Which input gives a hardware reset (R184's table of causes; R171). -/
inductive ResetSource where
  /-- the power-up detector -/
  | detector
  /-- the RESET pin, with the supply steady, low for this many µs up to its rising edge -/
  | resetPin (lowFor : Nat)
  /-- the RESET pin held low while the supply rises through the detector's threshold -/
  | resetPinAtPowerUp
  deriving DecidableEq, Repr

/-- The five cadence generators, and the cadence levels named after them (R88, R127).
`ret` is the manual's RETURN. -/
inductive Cadence where
  | alert | first | ret | motion | stale
  deriving DecidableEq, Repr

/-- The level at a pin (R137), and on a link of the loop (R152). -/
inductive PinLevel where
  | low | high
  deriving DecidableEq, Repr

/-- A character on the line behind the low level of its start bit: the levels of its eight data bits
in the order they travel, and of its stop bit (R152). -/
structure Character where
  data : Vector PinLevel 8
  stop : PinLevel
  deriving DecidableEq, Repr

/-- The DEST and SRC addresses of a COMMAND frame and the tag that opens its body (R172, R200). -/
structure CommandHead where
  dest : Byte
  src : Byte
  tag : Byte
  deriving DecidableEq, Repr

/-- The commands and events the block takes, in the table's order. -/
inductive Instr where
  | hardwareReset (source : ResetSource) (straps : BitVec 6)
  | startedRecordQueued
  | badLength
  | truncated
  | badCrc
  | forwardedFrame (kind dest src : Byte) (body : List Byte)
  | cycleMarker (dest src : Byte) (body : List Byte)
  | lateBoundExpiry
  | pointsFrame (dest src : Byte) (body : List Byte)
  | outstationFrame (dest src : Byte) (body : List Byte)
  | commandWithoutCode (dest src : Byte) (body : List Byte)
  | unknownCommand (head : CommandHead) (code : Byte) (params : List Byte)
  | status (head : CommandHead) (params : List Byte)
  | setStation (head : CommandHead) (params : List Byte)
  | restart (head : CommandHead) (params : List Byte)
  | setTiming (head : CommandHead) (params : List Byte)
  | resync (head : CommandHead) (params : List Byte)
  | setCadenceRun (head : CommandHead) (params : List Byte)
  | setCadenceStop (head : CommandHead) (params : List Byte)
  | pointLoad (head : CommandHead) (params : List Byte)
  | pointDrop (head : CommandHead) (params : List Byte)
  | pointRead (head : CommandHead) (params : List Byte)
  | tableClear (head : CommandHead) (params : List Byte)
  | tableScan (head : CommandHead) (params : List Byte)
  | groupSet (head : CommandHead) (params : List Byte)
  | outstationRead (head : CommandHead) (params : List Byte)
  | setStaleLimit (head : CommandHead) (params : List Byte)
  | ackPoint (head : CommandHead) (params : List Byte)
  | ackGroup (head : CommandHead) (params : List Byte)
  | ackAll (head : CommandHead) (params : List Byte)
  | silence (head : CommandHead) (params : List Byte)
  | hornSet (head : CommandHead) (params : List Byte)
  | lampOverride (head : CommandHead) (params : List Byte)
  | lampRead (head : CommandHead) (params : List Byte)
  | holdOn (head : CommandHead) (params : List Byte)
  | holdOff (head : CommandHead) (params : List Byte)
  | holdExpiry
  | prove (head : CommandHead) (params : List Byte)
  | dwellEnd (currents : BitVec 256)
  | clearLampFaults (head : CommandHead) (params : List Byte)
  | senseTimerExpiry (currents : BitVec 256)
  | phaseEnd (generator : Cadence) (currents : BitVec 256)
  | lineSet (head : CommandHead) (params : List Byte)
  | lineWrite (head : CommandHead) (params : List Byte)
  | lineRead (head : CommandHead) (params : List Byte)
  | pinChange (line : Fin 8) (level : PinLevel)
  | debounceExpiry (line : Fin 8)
  | conditionClear (head : CommandHead) (params : List Byte)
  | conditionRaise (head : CommandHead) (params : List Byte)
  | reportMask (head : CommandHead) (params : List Byte)
  | grant
  | transmissionEnd
  | byteReceived (character : Character)
  deriving DecidableEq, Repr

end Sys2Proof
end

