-- ==== Sys2Proof/Decode.lean ====
section
/-! DEFINITION. The decoder of table words. No row of spec/opcode_table.json gives bits (its rows have no match,
mask or fields), so no word spells a command and the decoder answers none on every word (assumption
log 17). The frames of the loop, which do have layouts (R200), are read by Machine/Port.lean. -/

namespace Sys2Proof

/-- The command a word of the table's bits spells: none, since no row has bits. -/
def decodeTableWord (_nbits _w : Nat) : Option Instr := none

end Sys2Proof
end

