-- ==== Sys2Proof/Config.lean ====
section
/-! DEFINITION. What the part fixes: its capacities and fixed durations, and the one value the
model leaves free (the lamp currents met by a sensing the controller makes on its own). -/

namespace Sys2Proof.Config

/-- Point entries the Point Table can hold (R1). -/
def maxPoints : Nat := 512
/-- Outstation entries the Outstation Table can hold (R20). -/
def maxOutstations : Nat := 32
/-- Records the Event Queue can hold (R185). -/
def maxEvents : Nat := 48
/-- Records one EVENTS frame carries at most (R189). -/
def recordsPerFrame : Nat := 6
/-- Slots of the reply queue (R173). -/
def replySlots : Nat := 4
/-- Frames the through FIFO can hold (R165). -/
def fifoDepth : Nat := 4
/-- Through frames sent in a row while a local frame waits (R166). -/
def localWaitLimit : Nat := 8
/-- Frame errors in a row that make the FRAME_ERRORS cause occur (R158). -/
def badRunLimit : Nat := 8
/-- The loop head's station address (R153). -/
def loopHead : Byte := 63
/-- The sense timer's period and the dwell of a prove step, in ms (R100, R106). -/
def senseInterval : Nat := 200
/-- The last step of a prove sweep (R106). -/
def lastProveStep : Nat := 16
/-- Bit times without a start bit that end a frame being received, in µs (R156). -/
def gapTime : Nat := 30
/-- Bit times of a character, in µs: a start bit, eight data bits and a stop bit (R152). -/
def characterTime : Nat := 10
/-- Events of its own that the controller takes at most in the time of one character (assumption
log 4). -/
def eventsPerCharacter : Nat := 64
/-- The shortest low level of the RESET pin that gives a hardware reset, in µs (R171). -/
def resetPulse : Nat := 10
/-- The time from the end of a hardware reset to its STARTED record, in µs (R184). -/
def startedDelay : Nat := 40

/-- The currents at the 256 lamp sense inputs (bit c for channel c) at the n-th sensing that the
controller makes on its own, with no command of the environment naming them. FREE VALUE: no body,
so no proof can know it (assumption log 7). -/
opaque lampCurrents : Nat → BitVec 256

end Sys2Proof.Config
end

