-- ==== Sys2Proof/Machine/State.lean ====
section
/-! DEFINITION. The state of the MC-256, block by block as the manual's Block Overview lists them, as plain
data, and its values after hardware reset. -/

namespace Sys2Proof.Machine

/-! ### The Point Table, the Outstation Table and the Group Table -/

/-- A point key, written outstation/index (R1). -/
structure Key where
  outstation : Nat
  index : Nat
  deriving DecidableEq, Repr

/-- Display mode of an ANALOGUE entry (R2). -/
inductive ColumnMode where
  | bar | dot
  deriving DecidableEq, Repr

/-- What the lamps show while the quality is not trusted (R2). -/
inductive StalePolicy where
  | wink | keep | dark
  deriving DecidableEq, Repr

/-- The parameters of an ANALOGUE entry (R3); an absent threshold is `none`. -/
structure AnalogueParams where
  rawLo : Nat
  rawHi : Nat
  underMargin : Nat
  overMargin : Nat
  ll : Option Nat
  l : Option Nat
  h : Option Nat
  hh : Option Nat
  deadband : Nat
  deriving DecidableEq, Repr

/-- The class of an entry with its display mode and the parameters of that class alone (R2, R3). -/
inductive PointClass where
  | binary (inverted : Bool) (normalState : Bool)
  | double (travelLimit : Nat) (disagreeAlarm : Bool)
  | analogue (mode : ColumnMode) (params : AnalogueParams)
  deriving DecidableEq, Repr

/-- The position of a DOUBLE point (R33). -/
inductive Position where
  | travel | closed | opened | disagree
  deriving DecidableEq, Repr

/-- The decoded value of an entry, by its class (R4). -/
inductive Decoded where
  | state (one : Bool)
  | position (p : Position)
  | level (fill lit : Nat)
  deriving DecidableEq, Repr

/-- The band of an ANALOGUE value (R4). -/
inductive Band where
  | normal | high | highHigh | low | lowLow
  deriving DecidableEq, Repr

/-- The causes evaluation can produce (R43). -/
inductive Cause where
  | high | highHigh | low | lowLow | abnormal | travelStuck | disagree | sensorFault
  deriving DecidableEq, Repr

/-- The states of an alarm record (R63). -/
inductive AlarmState where
  | normal | unack | acked | rtnUnack
  deriving DecidableEq, Repr

/-- The stamp carried by event records and kept by raises: cycle number and offset in ms (R126). -/
structure Stamp where
  cycle : Nat
  offset : Nat
  deriving DecidableEq, Repr

/-- The alarm record of an entry with priority 1..3 (R63). -/
structure AlarmRecord where
  state : AlarmState
  cause : Option Cause
  generation : Byte
  raised : Option Stamp
  deriving DecidableEq, Repr

/-- The fresh values of an alarm record (R63). -/
def AlarmRecord.fresh : AlarmRecord := ⟨.normal, none, 0, none⟩

/-- A point entry: its configured fields (R2, R3) and its dynamic fields (R4). `alarm` is present
exactly when the priority is 1..3. -/
structure PointEntry where
  key : Key
  cls : PointClass
  firstLamp : Nat
  span : Nat
  group : Nat
  priority : Nat
  policy : StalePolicy
  raw : Option Nat
  decoded : Option Decoded
  band : Band
  itemInvalid : Bool
  sensorFault : Bool
  travel : Nat
  alarm : Option AlarmRecord
  deriving DecidableEq, Repr

/-- The comms state of an outstation (R20). -/
inductive Comms where
  | unknown | up | down
  deriving DecidableEq, Repr

/-- An outstation entry (R20). -/
structure OutstationEntry where
  number : Nat
  points : Nat
  comms : Comms
  silence : Nat
  stale : Bool
  deriving DecidableEq, Repr

/-- An alarm group entry (R21). -/
structure Group where
  firstUp : Bool
  holder : Option Key
  deriving DecidableEq, Repr

/-! ### The Alarm Unit -/

/-- The horn (R70). -/
inductive Horn where
  | off | sounding | silenced
  deriving DecidableEq, Repr

/-- The counts, the horn and the horn enables (R69, R70, R73). -/
structure AlarmUnit where
  unack : Nat
  ringback : Nat
  hornCount : Nat
  horn : Horn
  enable1 : Bool
  enable2 : Bool
  enable3 : Bool
  deriving DecidableEq, Repr

/-! ### The Lamp Drive Unit -/

/-- The levels a channel is driven to show (R88); a cadence level names its generator. -/
inductive Level where
  | dark | steady | flash (c : Cadence)
  deriving DecidableEq, Repr

/-- The sources of a driven level (R89). -/
inductive Source where
  | none | point | override | prove | hold | test
  deriving DecidableEq, Repr

/-- The last sensed current of a channel (R87). -/
inductive Sensed where
  | notYet | absent | present
  deriving DecidableEq, Repr

/-- The kinds of lamp fault, OPEN and LEAKING (R87, R102). -/
inductive FaultKind where
  | opened | leaking
  deriving DecidableEq, Repr

/-- A channel record (R87); a fault of NONE is `none`. -/
structure Channel where
  binding : Option Key
  override : Option Level
  driven : Level
  source : Source
  held : Option Level
  sensed : Sensed
  mismatch : Nat
  fault : Option FaultKind
  deriving DecidableEq, Repr

/-- Whether a sweep is RUNNING (with the ms at which its dwell ends) or PAUSED (R105, R108). -/
inductive SweepRun where
  | running (dwellEnds : Nat)
  | paused
  deriving DecidableEq, Repr

/-- A prove sweep that is not IDLE (R105 to R109): its bank and step, the tag of its PROVE, and for
each of its 16 lamps whether it failed step 0 and whether it failed its own step. -/
structure Sweep where
  bank : Nat
  step : Nat
  run : SweepRun
  tag : Byte
  failedDark : BitVec 16
  failedOwn : BitVec 16
  deriving DecidableEq, Repr

/-- The Lamp Drive Unit. `sampleNo` is the MODEL's own counter, which numbers the sensings whose
currents are the free value `Config.lampCurrents` (assumption log 7). -/
structure LampUnit where
  channels : Vector Channel 256
  holdEnds : Option Nat
  sweep : Option Sweep
  senseDue : Nat
  sampleNo : Nat
  deriving DecidableEq, Repr

/-! ### Loop time -/

/-- The supervision state (R115). -/
inductive Supervision where
  | noSync | inStep | lost
  deriving DecidableEq, Repr

/-- The Cycle Supervisor (R115). `stampFrom` is the ms from which the stamp offset counts. -/
structure Supervisor where
  state : Supervision
  reference : Option Nat
  period : Nat
  window : Nat
  missLimit : Nat
  skewLimit : Nat
  misses : Nat
  skews : Nat
  cycle : Nat
  stampFrom : Nat
  deriving DecidableEq, Repr

/-- The run state of a cadence generator (R127). -/
inductive RunState where
  | running | stopping | stopped
  deriving DecidableEq, Repr

/-- The phase of a cadence generator (R127). -/
inductive Phase where
  | on | off
  deriving DecidableEq, Repr

/-- The times of a cadence, in cadence units of 10 ms (R127). -/
structure CadenceTimes where
  on : Nat
  off : Nat
  deriving DecidableEq, Repr

/-- A cadence generator (R127). The phase stands with the ms at which it ends, from which the
remaining time follows; both are absent while STOPPED. -/
structure Generator where
  times : CadenceTimes
  reload : Option CadenceTimes
  run : RunState
  phase : Option (Phase × Nat)
  deriving DecidableEq, Repr

/-- The five cadence generators (R127). -/
structure Generators where
  alert : Generator
  first : Generator
  ret : Generator
  motion : Generator
  stale : Generator
  deriving DecidableEq, Repr

/-! ### Panel lines -/

/-- The direction of a panel line (R137). -/
inductive Direction where
  | input | output
  deriving DecidableEq, Repr

/-- The polarity of a panel line (R137). -/
inductive Polarity where
  | activeLow | activeHigh
  deriving DecidableEq, Repr

/-- The input functions (R137). -/
inductive InputFunction where
  | none | ackSection | ackGroup | silence | lampTest | report
  deriving DecidableEq, Repr

/-- The output sources (R137). -/
inductive OutputSource where
  | latch | horn | fault | alarmPresent | attention
  deriving DecidableEq, Repr

/-- A line record (R137), with the level that the outside puts on the pin and, while the line's
debounce timer runs, the ms it measures from (R139, R140). -/
structure Line where
  direction : Direction
  polarity : Polarity
  function : InputFunction
  group : Nat
  source : OutputSource
  latch : Bool
  level : Option PinLevel
  pin : PinLevel
  timer : Option Nat
  deriving DecidableEq, Repr

/-- The Panel Line Unit: the lines, the common debounce time in ms and the lamp test state. -/
structure LineUnit where
  lines : Vector Line 8
  debounce : Nat
  lampTest : Bool
  deriving DecidableEq, Repr

/-! ### The panel loop and the Command Unit -/

/-- A good frame: the envelope's KIND, DEST and SRC and the body (R153). LEAD, LENGTH and CRC
follow from these. -/
structure Frame where
  kind : Byte
  dest : Byte
  src : Byte
  body : List Byte
  deriving DecidableEq, Repr

/-- The receiver (R155). `gapEnds` is the µs at which the gap timer expires (R156); `got` holds the
bytes received for the frame from its LENGTH on. -/
inductive Receiver where
  | hunting
  | length (gapEnds : Nat)
  | collecting (toCome : Nat) (got : List Byte) (gapEnds : Nat)
  deriving DecidableEq, Repr

/-- The Loop Port (R151). `station` is absent while PASS-ONLY; a frame in transmission stands with
the µs at which its last stop bit ends. -/
structure Port where
  straps : BitVec 6
  station : Option Byte
  receiver : Receiver
  fifo : List Frame
  sending : Option (Frame × Nat)
  localWait : Nat
  frameErrors : Nat
  badRun : Nat
  returned : Nat
  foreign : Nat
  forwardDrops : Nat
  deriving DecidableEq, Repr

/-- The Command Unit (R173, R183): the queued replies, oldest first, the number of reserved slots
and the dropped-command count. -/
structure CommandUnit where
  replies : List Frame
  reserved : Nat
  dropped : Nat
  deriving DecidableEq, Repr

/-! ### The Event Queue and the Condition Set -/

/-- The transitions an ALARM record reports (R67). -/
inductive Transition where
  | raised | returned | acked | cleared | updated | removed
  deriving DecidableEq, Repr

/-- The eight conditions (R190), in list order. -/
inductive Condition where
  | loopLost | markerSkew | frameErrors | eventLoss | lampFault | staleOutstation
  | commandOverrun | forwardDrop
  deriving DecidableEq, Repr

/-- The causes of a STARTED record (R184, R181). -/
inductive StartCause where
  | powerUp | resetPin | command
  deriving DecidableEq, Repr

/-- The causes of a HOLD_ENDED record (R98). -/
inductive HoldEnd where
  | command | expiry
  deriving DecidableEq, Repr

/-- The kinds of event record with their data (R186). -/
inductive RecordData where
  | alarm (key : Key) (transition : Transition) (cause : Option Cause) (generation : Byte)
  | key (line : Nat) (function : InputFunction) (group : Nat)
  | lampFault (channel : Nat) (kind : FaultKind)
  | condition (c : Condition)
  | started (cause : StartCause) (station : Byte)
  | tableCleared (removed : Nat)
  | holdEnded (cause : HoldEnd)
  deriving DecidableEq, Repr

/-- An event record (R186). -/
structure EventRecord where
  data : RecordData
  stamp : Stamp
  deriving DecidableEq, Repr

/-- The Event Queue, oldest record first, with its lost count (R185), and the Condition Set
(R190, R191): bit n of `latched` and of `mask` stands for condition n (R200). -/
structure Reports where
  queue : List EventRecord
  lost : Nat
  latched : Byte
  mask : Byte
  deriving DecidableEq, Repr

/-! ### The whole machine -/

/-- The state of the part. `clock` is the time since the hardware reset in µs, that is in bit times
(R152); the time base of R114 is its whole ms. `startDue` is the cause of a STARTED record of
start-up that is not queued yet (R184). `pending` is the queue of commands, first in first out. -/
structure State where
  clock : Nat
  startDue : Option StartCause
  port : Port
  commands : CommandUnit
  supervisor : Supervisor
  generators : Generators
  points : List PointEntry
  outstations : List OutstationEntry
  groups : Vector Group 16
  unmapped : Nat
  staleLimit : Nat
  alarms : AlarmUnit
  lamps : LampUnit
  panel : LineUnit
  reports : Reports
  pending : List Instr
  deriving DecidableEq, Repr

/-- No step of this machine stops with a fault: every event the manual names has an effect (or
leaves the state as it is). The type is closed and has no value. -/
inductive Fault where
  deriving DecidableEq, Repr

/-- Why a step can be refused. -/
inductive Refusal where
  /-- Raised by `exec` for a command that has no meaning yet, by its mnemonic; no arm of `exec`
  raises it now. Safe. -/
  | notModelled (mnemonic : String)
  deriving DecidableEq, Repr

/-! ### Hardware reset -/

/-- The station number the straps give, absent for PASS-ONLY (R159). -/
def stationOfStraps (straps : BitVec 6) : Option Byte :=
  if straps = 0 ∨ straps = 63 then none else some (straps.zeroExtend 8)

/-- A generator after hardware reset: RUNNING in an ON phase that began at the reset (R135). -/
def Generator.reset (on off : Nat) : Generator :=
  { times := ⟨on, off⟩, reload := none, run := .running, phase := some (.on, on * 10) }

/-- A channel record after hardware reset (R87, R112). -/
def Channel.reset : Channel :=
  { binding := none, override := none, driven := .dark, source := .none, held := none,
    sensed := .notYet, mismatch := 0, fault := none }

/-- A line record after hardware reset, settling from the reset on (R137, R140, R150), with the
level the outside puts on its pin. -/
def Line.reset (pin : PinLevel) : Line :=
  { direction := .input, polarity := .activeLow, function := .none, group := 0, source := .latch,
    latch := false, level := none, pin := pin, timer := some 0 }

/-- Every block at its hardware reset values (R184), with the straps as read, the cause of the reset
and the levels outside the panel pins; `queue` is the command queue, which is no part of the
hardware. -/
def State.afterReset (straps : BitVec 6) (cause : StartCause) (pins : Vector PinLevel 8)
    (queue : List Instr) : State where
  clock := 0
  startDue := if (stationOfStraps straps).isSome then some cause else none
  port :=
    { straps := straps, station := stationOfStraps straps, receiver := .hunting, fifo := [],
      sending := none, localWait := 0, frameErrors := 0, badRun := 0, returned := 0, foreign := 0,
      forwardDrops := 0 }
  commands := { replies := [], reserved := 0, dropped := 0 }
  supervisor :=
    { state := .noSync, reference := none, period := 1000, window := 100, missLimit := 3,
      skewLimit := 5, misses := 0, skews := 0, cycle := 0, stampFrom := 0 }
  generators :=
    { alert := .reset 25 25, first := .reset 12 13, ret := .reset 60 60, motion := .reset 40 10,
      stale := .reset 10 190 }
  points := []
  outstations := []
  groups := Vector.replicate 16 ⟨false, none⟩
  unmapped := 0
  staleLimit := 5
  alarms :=
    { unack := 0, ringback := 0, hornCount := 0, horn := .off, enable1 := true, enable2 := true,
      enable3 := false }
  lamps :=
    { channels := Vector.replicate 256 Channel.reset, holdEnds := none, sweep := none,
      senseDue := Config.senseInterval, sampleNo := 0 }
  panel :=
    { lines := Table.mapIdx (fun _ pin => Line.reset pin) pins, debounce := 50, lampTest := false }
  reports := { queue := [], lost := 0, latched := 0, mask := 0xFF }
  pending := queue

/-- The machine right after a hardware reset given by the power-up detector. DESIGN CHOICE: the
straps read 1, so the controller is ASSIGNED as station 1 (assumption log 1), and every panel pin
is HIGH (assumption log 2); the manual gives neither. -/
def State.reset : State :=
  State.afterReset 1 .powerUp (Vector.replicate 8 .high) []

end Sys2Proof.Machine
end

