-- ==== Sys2Proof/Machine/Layout.lean ====
section
/-! DEFINITION. Frame and Record Layouts (R200): the code values, the byte fields, the frame on the wire with
its CRC (R153, R154), event records and the data of replies that one record fills. -/

namespace Sys2Proof.Machine

/-! ### Byte fields -/

/-- A one-byte field of parameters or a body, at an offset. -/
def field8 (bytes : List Byte) (i : Nat) : Nat := (bytes.getD i 0).toNat

/-- A two-byte field, high byte first (R200). -/
def field16 (bytes : List Byte) (i : Nat) : Nat := field8 bytes i * 256 + field8 bytes (i + 1)

/-- The upper nibble of a one-byte field. -/
def upperNibble (bytes : List Byte) (i : Nat) : Nat := field8 bytes i / 16

/-- The lower nibble of a one-byte field. -/
def lowerNibble (bytes : List Byte) (i : Nat) : Nat := field8 bytes i % 16

/-- A number as a two-byte field, high byte first (R200). -/
def bytes16 (n : Nat) : List Byte := [byteOf (n / 256), byteOf n]

/-- Two nibbles as one byte. -/
def nibbles (upper lower : Nat) : Byte := byteOf (upper * 16 + lower)

/-- One bit of a flags byte. -/
def bitAt (n : Nat) (b : Bool) : Nat := if b then 2 ^ n else 0

/-- A key as three bytes (R200). -/
def Key.bytes (k : Key) : List Byte := bytes16 k.outstation ++ [byteOf k.index]

/-- A key that may be absent: 0/0, which no entry can hold, when it is (R200). -/
def keyBytes : Option Key → List Byte
  | some k => k.bytes
  | none => [0, 0, 0]

/-- A key read from three bytes, all sixteen bits of the outstation taken. -/
def keyField (bytes : List Byte) (i : Nat) : Key := ⟨field16 bytes i, field8 bytes (i + 2)⟩

/-! ### Code values (R200, 11.6) -/

def Position.code : Position → Nat
  | .travel => 0 | .closed => 1 | .opened => 2 | .disagree => 3

def Band.code : Band → Nat
  | .normal => 0 | .high => 1 | .highHigh => 2 | .low => 3 | .lowLow => 4

def Comms.code : Comms → Nat
  | .unknown => 0 | .up => 1 | .down => 2

def AlarmState.code : AlarmState → Nat
  | .normal => 0 | .unack => 1 | .acked => 2 | .rtnUnack => 3

def Cause.code : Cause → Nat
  | .high => 1 | .highHigh => 2 | .low => 3 | .lowLow => 4 | .abnormal => 5 | .travelStuck => 6
  | .disagree => 7 | .sensorFault => 8

/-- A cause that may be absent, code 0. -/
def causeCode : Option Cause → Nat
  | some c => c.code
  | none => 0

def Transition.code : Transition → Nat
  | .raised => 1 | .returned => 2 | .acked => 3 | .cleared => 4 | .updated => 5 | .removed => 6

def Supervision.code : Supervision → Nat
  | .noSync => 0 | .inStep => 1 | .lost => 2

def Horn.code : Horn → Nat
  | .off => 0 | .sounding => 1 | .silenced => 2

def cadenceOfCode : Nat → Option Cadence
  | 0 => some .alert | 1 => some .first | 2 => some .ret | 3 => some .motion | 4 => some .stale
  | _ => none

def cadenceCode : Cadence → Nat
  | .alert => 0 | .first => 1 | .ret => 2 | .motion => 3 | .stale => 4

def RunState.code : RunState → Nat
  | .running => 0 | .stopping => 1 | .stopped => 2

def Level.code : Level → Nat
  | .dark => 1 | .steady => 2 | .flash c => 3 + cadenceCode c

/-- An override level in a record: 0 is none. -/
def overrideCode : Option Level → Nat
  | some l => l.code
  | none => 0

def levelOfCode : Nat → Option Level
  | 1 => some .dark | 2 => some .steady | 3 => some (.flash .alert) | 4 => some (.flash .first)
  | 5 => some (.flash .ret) | 6 => some (.flash .motion) | 7 => some (.flash .stale)
  | _ => none

def Source.code : Source → Nat
  | .none => 0 | .point => 1 | .override => 2 | .prove => 3 | .hold => 4 | .test => 5

def Sensed.code : Sensed → Nat
  | .notYet => 0 | .absent => 1 | .present => 2

def FaultKind.code : FaultKind → Nat
  | .opened => 1 | .leaking => 2

/-- The fault of a channel: 0 is NONE. -/
def faultCode : Option FaultKind → Nat
  | some k => k.code
  | none => 0

def StalePolicy.code : StalePolicy → Nat
  | .wink => 1 | .keep => 2 | .dark => 3

def stalePolicyOfCode : Nat → Option StalePolicy
  | 1 => some .wink | 2 => some .keep | 3 => some .dark
  | _ => none

def Direction.code : Direction → Nat
  | .input => 0 | .output => 1

def directionOfCode : Nat → Option Direction
  | 0 => some .input | 1 => some .output
  | _ => none

def polarityOfCode : Nat → Option Polarity
  | 0 => some .activeLow | 1 => some .activeHigh
  | _ => none

def InputFunction.code : InputFunction → Nat
  | .none => 0 | .ackSection => 1 | .ackGroup => 2 | .silence => 3 | .lampTest => 4 | .report => 5

def inputFunctionOfCode : Nat → Option InputFunction
  | 0 => some .none | 1 => some .ackSection | 2 => some .ackGroup | 3 => some .silence
  | 4 => some .lampTest | 5 => some .report
  | _ => none

def outputSourceOfCode : Nat → Option OutputSource
  | 0 => some .latch | 1 => some .horn | 2 => some .fault | 3 => some .alarmPresent
  | 4 => some .attention
  | _ => none

/-- The number of a condition, which is also its bit in a condition set and its place in list
order. -/
def Condition.code : Condition → Nat
  | .loopLost => 0 | .markerSkew => 1 | .frameErrors => 2 | .eventLoss => 3 | .lampFault => 4
  | .staleOutstation => 5 | .commandOverrun => 6 | .forwardDrop => 7

/-- The condition set holding one condition. -/
def Condition.bit (c : Condition) : Byte := byteOf (2 ^ c.code)

/-- The eight conditions in list order (R190). -/
def Condition.all : List Condition :=
  [.loopLost, .markerSkew, .frameErrors, .eventLoss, .lampFault, .staleOutstation,
    .commandOverrun, .forwardDrop]

/-- Whether a condition set holds a condition. -/
def Condition.isIn (c : Condition) (set : Byte) : Bool := set.getLsbD c.code

def StartCause.code : StartCause → Nat
  | .powerUp => 1 | .resetPin => 2 | .command => 3

def HoldEnd.code : HoldEnd → Nat
  | .command => 1 | .expiry => 2

/-- The result codes of replies (R178, 11.5). -/
inductive Result where
  | ok | unknownCommand | badLength | badParam | notFound | tableFull | outstationFull | lampRange
  | lampOverlap | busy | noAlarm | nothingToAck | staleAck
  deriving DecidableEq, Repr

def Result.code : Result → Nat
  | .ok => 0 | .unknownCommand => 1 | .badLength => 2 | .badParam => 3 | .notFound => 4
  | .tableFull => 5 | .outstationFull => 6 | .lampRange => 7 | .lampOverlap => 8 | .busy => 9
  | .noAlarm => 10 | .nothingToAck => 11 | .staleAck => 12

/-- KIND values (11.2). -/
def kindCycle : Byte := 0x01
def kindPoints : Byte := 0x02
def kindOutstation : Byte := 0x03
def kindCommand : Byte := 0x04
def kindReply : Byte := 0x05
def kindEvents : Byte := 0x06

/-! ### The frame on the wire -/

/-- One of the eight steps a byte takes the CRC register through (R154). -/
def crcStep (r : BitVec 16) : BitVec 16 :=
  if r.msb then (r <<< 1) ^^^ 0x1021#16 else r <<< 1

/-- The CRC register after one more byte (R154). -/
def crcByte (r : BitVec 16) (b : Byte) : BitVec 16 :=
  crcStep (crcStep (crcStep (crcStep (crcStep (crcStep (crcStep (crcStep
    (r ^^^ (b.zeroExtend 16 <<< 8)))))))))

/-- The CRC over the bytes from LENGTH through the last body byte (R154). -/
def crc16 (bytes : List Byte) : BitVec 16 := bytes.foldl crcByte 0xFFFF

/-- The LEAD byte (R153). -/
def lead : Byte := 0xA9

/-- The bytes the CRC covers: LENGTH, KIND, DEST, SRC and the body (R153, R154). -/
def Frame.covered (f : Frame) : List Byte :=
  byteOf (f.body.length + 3) :: f.kind :: f.dest :: f.src :: f.body

/-- A frame as it goes on the line: LEAD, the covered bytes and the CRC, high byte first (R153). -/
def Frame.wire (f : Frame) : List Byte :=
  lead :: f.covered ++ bytes16 (crc16 f.covered).toNat

/-- The time a frame occupies the transmitter, in µs: ten bit times a byte (R152). -/
def Frame.duration (f : Frame) : Nat := 10 * (f.body.length + 7)

/-! ### Characters on the line (R152) -/

/-- The value of a data bit by its level. DESIGN CHOICE: the high level is 1 (assumption log 30);
R152 gives the levels of the start bit, the stop bit and the idle line alone. -/
def bitOfLevel : PinLevel → Nat
  | .low => 0
  | .high => 1

/-- The level that carries a data bit: the high level carries 1 (assumption log 30). -/
def levelOfBit (b : Bool) : PinLevel := if b then .high else .low

/-- The byte of a character: its data bits, least significant first, whatever its stop bit (R152). -/
def characterByte (c : Character) : Byte :=
  byteOf (c.data.toList.foldr (fun l n => bitOfLevel l + 2 * n) 0)

/-- The character that carries a byte (R152). -/
def characterOf (b : Byte) : Character :=
  { data := Table.mapIdx (fun k _ => levelOfBit (b.getLsbD k)) (Vector.replicate 8 PinLevel.low)
    stop := .high }

/-- The ten levels of a character, one for each bit time: start bit, data bits, stop bit (R152). -/
def characterLevels (c : Character) : List PinLevel := .low :: c.data.toList ++ [c.stop]

/-- The levels of a frame on the line, its characters back to back (R152). -/
def Frame.levels (f : Frame) : List PinLevel := f.wire.flatMap fun b => characterLevels (characterOf b)

/-! ### Event records and EVENTS bodies (R200, 11.5) -/

/-- The kind byte and the five data bytes of a record. -/
def RecordData.bytes : RecordData → Byte × List Byte
  | .alarm k t c g => (1, k.bytes ++ [nibbles t.code (causeCode c), g])
  | .key line fn group => (2, [byteOf line, byteOf fn.code, byteOf group, 0, 0])
  | .lampFault ch kind => (3, [byteOf ch, byteOf kind.code, 0, 0, 0])
  | .condition c => (4, [byteOf c.code, 0, 0, 0, 0])
  | .started cause station => (5, [byteOf cause.code, station, 0, 0, 0])
  | .tableCleared n => (6, bytes16 n ++ [0, 0, 0])
  | .holdEnded cause => (7, [byteOf cause.code, 0, 0, 0, 0])

/-- An event record as its ten bytes. -/
def EventRecord.bytes (r : EventRecord) : List Byte :=
  r.data.bytes.1 :: bytes16 r.stamp.cycle ++ bytes16 r.stamp.offset ++ r.data.bytes.2

/-- The body of an EVENTS frame: lost count, record count, records oldest first (R189). -/
def eventsBody (lost : Nat) (records : List EventRecord) : List Byte :=
  byteOf lost :: byteOf records.length :: records.flatMap EventRecord.bytes

/-! ### Reply data of one record -/

/-- A threshold, FFFFh when absent (R200). -/
def thresholdBytes : Option Nat → List Byte
  | some t => bytes16 t
  | none => [0xFF, 0xFF]

/-- Offsets 0 to 26 of POINT READ: the POINT LOAD block of the entry as held, the fields of other
classes sent as 0 (R200, 11.4.1 and 11.4.3). -/
def PointEntry.blockBytes (e : PointEntry) : List Byte :=
  let common (cls mode : Nat) : List Byte :=
    e.key.bytes ++ [nibbles cls mode, byteOf e.firstLamp, byteOf e.span, byteOf e.group,
      nibbles e.priority e.policy.code]
  match e.cls with
  | .binary inverted normal =>
    common 1 (if inverted then 2 else 1) ++ [nibbles normal.toNat 0, 0] ++ List.replicate 17 0
  | .double limit disagree =>
    common 2 0 ++ [nibbles 0 disagree.toNat, byteOf limit] ++ List.replicate 17 0
  | .analogue mode p =>
    common 3 (match mode with | .bar => 3 | .dot => 4) ++ [0, 0] ++ bytes16 p.rawLo ++
      bytes16 p.rawHi ++ bytes16 p.underMargin ++ bytes16 p.overMargin ++ thresholdBytes p.ll ++
      thresholdBytes p.l ++ thresholdBytes p.h ++ thresholdBytes p.hh ++ [byteOf p.deadband]

/-- Offsets 27 to 42 of POINT READ: the dynamic fields, given the derived quality's code and whether
the entry is its group's holder (R18; R200, 11.4.3). A field of another class is sent as 0. -/
def PointEntry.dynamicBytes (e : PointEntry) (qualityCode : Nat) (holder : Bool) : List Byte :=
  let analogue := match e.cls with | .analogue _ _ => true | _ => false
  let double := match e.cls with | .double _ _ => true | _ => false
  let stamp := e.alarm.bind (·.raised)
  let flags := bitAt 0 e.raw.isSome + bitAt 1 e.decoded.isSome + bitAt 2 e.itemInvalid +
    bitAt 3 (analogue && e.sensorFault) + bitAt 4 e.alarm.isSome + bitAt 5 stamp.isSome +
    bitAt 6 holder
  let value := match e.decoded with
    | some (.state b) => b.toNat
    | some (.position p) => p.code
    | some (.level fill _) => fill
    | none => 0
  let lit := match e.decoded with
    | some (.level _ lit) => lit
    | _ => 0
  let record := e.alarm.getD .fresh
  [byteOf flags] ++ bytes16 (e.raw.getD 0) ++ bytes16 value ++
    [byteOf lit, byteOf (if analogue then e.band.code else 0),
      byteOf (if double then e.travel else 0), byteOf qualityCode, byteOf record.state.code,
      byteOf (causeCode record.cause), record.generation] ++
    bytes16 ((stamp.map (·.cycle)).getD 0) ++ bytes16 ((stamp.map (·.offset)).getD 0)

/-- The six bytes of a channel in LAMP READ (R111; R200, 11.4.4). -/
def Channel.bytes (c : Channel) : List Byte :=
  keyBytes c.binding ++ [nibbles (overrideCode c.override) c.driven.code,
    nibbles c.source.code c.sensed.code, nibbles c.mismatch (faultCode c.fault)]

/-- The OUTSTATION READ data (R61; R200, 11.4.4). -/
def OutstationEntry.bytes (o : OutstationEntry) (staleLimit : Nat) : List Byte :=
  bytes16 o.number ++ bytes16 o.points ++
    [byteOf o.comms.code, byteOf o.silence, byteOf o.stale.toNat, byteOf staleLimit]

end Sys2Proof.Machine
end

