-- ==== Sys2Proof/Machine/Ops.lean ====
section
/-! DEFINITION. The named operations over the state's blocks that the meanings share: the time base, the tables,
event records and condition latches, and saturating counts. -/

namespace Sys2Proof.Machine

/-! ### The time base (R114) -/

/-- The moment of an event: the whole ms of the time base (R114). -/
def State.now (s : State) : Nat := s.clock / 1000

/-- The clock moved on to a moment given in µs; it never moves back. -/
def State.advanceTo (us : Nat) (s : State) : State := { s with clock := max s.clock us }

/-- The stamp an event record made now carries (R126). -/
def State.stamp (s : State) : Stamp :=
  ⟨s.supervisor.cycle, min 65535 (s.now - s.supervisor.stampFrom)⟩

/-- A count that saturates (Conventions, 4.4). -/
def saturate (limit n : Nat) : Nat := if n < limit then n + 1 else n

/-- Whether the controller is ASSIGNED (R159). -/
def State.assigned (s : State) : Bool := s.port.station.isSome

/-! ### Event records and condition latches (R185 to R192) -/

/-- A condition latched, with no record. -/
def Reports.latch (c : Condition) (r : Reports) : Reports :=
  { r with latched := r.latched ||| c.bit }

/-- A record made with a stamp: queued at the young end, or lost to a full queue, which raises the
lost count and latches EVENT_LOSS without a record (R188). -/
def Reports.record (stamp : Stamp) (d : RecordData) (r : Reports) : Reports :=
  if r.queue.length < Config.maxEvents then
    { r with queue := r.queue ++ [⟨d, stamp⟩] }
  else
    { r with lost := saturate 255 r.lost }.latch .eventLoss

/-- A condition's cause occurs (R192): a clear latch is latched, with a CONDITION record if the
condition is in the report mask and is not EVENT_LOSS. -/
def Reports.occur (stamp : Stamp) (c : Condition) (r : Reports) : Reports :=
  if c.isIn r.latched then r
  else if c.isIn r.mask && c != .eventLoss then (r.latch c).record stamp (.condition c)
  else r.latch c

/-- An event record made now. -/
def State.record (d : RecordData) (s : State) : State :=
  { s with reports := s.reports.record s.stamp d }

/-- The cause of a condition occurring now. -/
def State.occur (c : Condition) (s : State) : State :=
  { s with reports := s.reports.occur s.stamp c }

/-! ### Keys and the sorted tables (R1, R20) -/

/-- The order of keys (R1). -/
def Key.lt (a b : Key) : Bool :=
  decide (a.outstation < b.outstation) ||
    (decide (a.outstation = b.outstation) && decide (a.index < b.index))

/-- The entry held under a key (R1). -/
def State.point (s : State) (k : Key) : Option PointEntry := s.points.find? (·.key = k)

/-- The entry of an outstation (R20). -/
def State.outstation (s : State) (n : Nat) : Option OutstationEntry :=
  s.outstations.find? (·.number = n)

/-- The point table with the entry under a key changed. -/
def modifyPoint (k : Key) (f : PointEntry → PointEntry) (l : List PointEntry) : List PointEntry :=
  l.map fun e => if e.key = k then f e else e

/-- The outstation table with one outstation's entry changed. -/
def modifyOutstation (n : Nat) (f : OutstationEntry → OutstationEntry)
    (l : List OutstationEntry) : List OutstationEntry :=
  l.map fun o => if o.number = n then f o else o

/-- A new entry placed in key order (R12). -/
def insertPoint (e : PointEntry) : List PointEntry → List PointEntry
  | [] => [e]
  | x :: l => if e.key.lt x.key then e :: x :: l else x :: insertPoint e l

/-- A new outstation entry placed in outstation order (R20). -/
def insertOutstation (o : OutstationEntry) : List OutstationEntry → List OutstationEntry
  | [] => [o]
  | x :: l => if o.number < x.number then o :: x :: l else x :: insertOutstation o l

/-- The lamps of an entry include a channel (R5). -/
def PointEntry.owns (e : PointEntry) (c : Nat) : Bool :=
  decide (e.firstLamp ≤ c) && decide (c < e.firstLamp + e.span)

/-! ### Groups (R21) -/

/-- The entry of a group 1..16; none for group 0. -/
def State.group (s : State) (g : Nat) : Option Group :=
  if g = 0 then none else s.groups[g - 1]?

/-- The group table with one group's entry changed. -/
def State.modifyGroup (g : Nat) (f : Group → Group) (s : State) : State :=
  { s with groups := Table.mapIdx (fun i x => if i + 1 = g then f x else x) s.groups }

/-- Every group's holder made absent (R17, R23). -/
def State.clearHolders (s : State) : State :=
  { s with groups := Table.mapIdx (fun _ x => { x with holder := none }) s.groups }

/-- Whether an entry is the first-up holder of its group (R18). -/
def State.isHolder (s : State) (e : PointEntry) : Bool :=
  match s.group e.group with
  | some g => g.holder == some e.key
  | none => false

/-! ### Generators (R127) -/

/-- The generator of a name. -/
def Generators.get (g : Generators) : Cadence → Generator
  | .alert => g.alert | .first => g.first | .ret => g.ret | .motion => g.motion | .stale => g.stale

/-- The generators with one of them changed. -/
def Generators.modify (c : Cadence) (f : Generator → Generator) (g : Generators) : Generators :=
  match c with
  | .alert => { g with alert := f g.alert }
  | .first => { g with first := f g.first }
  | .ret => { g with ret := f g.ret }
  | .motion => { g with motion := f g.motion }
  | .stale => { g with stale := f g.stale }

/-- Every generator changed. -/
def Generators.map (f : Generator → Generator) (g : Generators) : Generators :=
  ⟨f g.alert, f g.first, f g.ret, f g.motion, f g.stale⟩

/-! ### Channels and lines -/

/-- The channels rebuilt, each from its number and old record. -/
def State.mapChannels (f : Nat → Channel → Channel) (s : State) : State :=
  { s with lamps := { s.lamps with channels := Table.mapIdx f s.lamps.channels } }

/-- A line's record. -/
def State.line (s : State) (i : Fin 8) : Line := s.panel.lines[i.val]

/-- The panel lines with one record changed. -/
def State.modifyLine (i : Fin 8) (f : Line → Line) (s : State) : State :=
  { s with panel := { s.panel with
      lines := Table.mapIdx (fun j l => if j = i.val then f l else l) s.panel.lines } }

/-- The eight lines, PL0 first. -/
def allLines : List (Fin 8) := [0, 1, 2, 3, 4, 5, 6, 7]

end Sys2Proof.Machine
end

