-- ==== Sys2Proof/Machine/Flags.lean ====
section
/-! DEFINITION. The indications derived from the state: point quality (R47), evaluation (R43), severity (R64), the
active states of panel lines and the levels they drive (R137, R144), lamp test (R142), the FAULT
level (R197) and the standing causes (R190). -/

namespace Sys2Proof.Machine

/-! ### Quality (R47) -/

/-- The quality of a point (R47). -/
inductive Quality where
  | never | offline | stale | invalid | sensorFault | good
  deriving DecidableEq, Repr

def Quality.code : Quality → Nat
  | .never => 0 | .offline => 1 | .stale => 2 | .invalid => 3 | .sensorFault => 4 | .good => 5

/-- Whether an entry is of class ANALOGUE. -/
def PointEntry.isAnalogue (e : PointEntry) : Bool :=
  match e.cls with
  | .analogue _ _ => true
  | _ => false

/-- Whether the stale flag of an outstation is set; clear for an outstation with no entry. -/
def State.staleFlag (s : State) (n : Nat) : Bool :=
  match s.outstation n with
  | some o => o.stale
  | none => false

/-- Whether an outstation is DOWN. -/
def State.down (s : State) (n : Nat) : Bool :=
  match s.outstation n with
  | some o => o.comms == .down
  | none => false

/-- The quality of an entry: the first case of R47 that applies. -/
def State.quality (s : State) (e : PointEntry) : Quality :=
  if e.raw = none then .never
  else if s.down e.key.outstation then .offline
  else if s.supervisor.state = .lost ∨ s.staleFlag e.key.outstation then .stale
  else if e.itemInvalid then .invalid
  else if e.isAnalogue && e.sensorFault then .sensorFault
  else .good

/-- The qualities on which a cause is handed on (R30, R58). -/
def Quality.trusted (q : Quality) : Bool := q == .good || q == .sensorFault

/-- The qualities from which quality return evaluates (R58). -/
def Quality.withheld (q : Quality) : Bool := q == .offline || q == .stale

/-! ### Evaluation (R43) -/

/-- The cause of a band, none for NORMAL. -/
def Band.cause : Band → Option Cause
  | .normal => none
  | .high => some .high
  | .highHigh => some .highHigh
  | .low => some .low
  | .lowLow => some .lowLow

/-- The result of evaluating an entry with an alarm record (R43). -/
def PointEntry.evaluate (e : PointEntry) : Option Cause :=
  match e.cls with
  | .binary _ normalState =>
    match e.decoded with
    | some (.state b) => if b != normalState then some .abnormal else none
    | _ => none
  | .double limit disagreeAlarm =>
    match e.decoded with
    | some (.position .disagree) => if disagreeAlarm then some .disagree else none
    | some (.position .travel) =>
      if limit ≠ 0 ∧ e.travel = limit then some .travelStuck else none
    | _ => none
  | .analogue _ _ => if e.sensorFault then some .sensorFault else e.band.cause

/-- A change of cause that is a same-side severity drop (R64). -/
def sameSideDrop (old new : Cause) : Bool :=
  match old, new with
  | .highHigh, .high => true
  | .lowLow, .low => true
  | _, _ => false

/-! ### Panel lines, the FAULT level and lamp test -/

/-- The active state a pin level gives (R137). -/
def Polarity.active (p : Polarity) (l : PinLevel) : Bool :=
  match p, l with
  | .activeLow, .low => true
  | .activeHigh, .high => true
  | _, _ => false

/-- The pin level that shows an active state (R144). -/
def Polarity.drive (p : Polarity) (active : Bool) : PinLevel :=
  match p, active with
  | .activeLow, true => .low
  | .activeLow, false => .high
  | .activeHigh, true => .high
  | .activeHigh, false => .low

/-- The FAULT level: a latched condition is in the report mask (R197). -/
def State.faultLevel (s : State) : Bool := s.reports.latched &&& s.reports.mask != 0

/-- The ATTENTION source (R145). -/
def State.attention (s : State) : Bool :=
  decide (0 < s.alarms.unack) &&
    match s.generators.alert.phase with
    | some (.on, _) => true
    | _ => false

/-- The active state of an output source, given the line's latch (R144). -/
def State.sourceActive (s : State) (latch : Bool) : OutputSource → Bool
  | .latch => latch
  | .horn => s.alarms.horn == .sounding
  | .fault => s.faultLevel
  | .alarmPresent => decide (0 < s.alarms.unack + s.alarms.ringback)
  | .attention => s.attention

/-- The active state of an INPUT line: inactive while its debounced level is absent (R137). -/
def Line.inputActive (l : Line) : Bool :=
  match l.level with
  | some p => l.polarity.active p
  | none => false

/-- The active state of a line, by its direction (R137, R144, R149). -/
def State.lineActive (s : State) (l : Line) : Bool :=
  match l.direction with
  | .input => l.inputActive
  | .output => s.sourceActive l.latch l.source

/-- The level an OUTPUT line drives its pin to; an INPUT line drives nothing (R144). -/
def State.drivenPin (s : State) (l : Line) : Option PinLevel :=
  match l.direction with
  | .input => none
  | .output => some (l.polarity.drive (s.sourceActive l.latch l.source))

/-- Whether a line holds lamp test: an active INPUT line with function LAMP_TEST (R142). -/
def Line.holdsLampTest (l : Line) : Bool :=
  l.direction == .input && l.function == .lampTest && l.inputActive

/-- Whether at least one line holds lamp test (R142). -/
def State.lampTestHeld (s : State) : Bool := s.panel.lines.toList.any Line.holdsLampTest

/-! ### Lamps -/

/-- The number of FAULTED channels (R87). -/
def State.faultedLamps (s : State) : Nat :=
  (s.lamps.channels.toList.filter (·.fault.isSome)).length

/-- Whether the lamp of a channel is driven on: its level, with the phase of the generator it names
(R88). -/
def State.lampOn (s : State) (c : Channel) : Bool :=
  match c.driven with
  | .dark => false
  | .steady => true
  | .flash g =>
    match (s.generators.get g).phase with
    | some (.off, _) => false
    | _ => true

/-! ### Standing causes (R190) -/

/-- Whether the standing cause of a condition holds; five conditions have none (R190). -/
def State.standing (s : State) : Condition → Bool
  | .loopLost => s.supervisor.state == .lost
  | .lampFault => s.lamps.channels.toList.any (·.fault.isSome)
  | .staleOutstation => s.outstations.any (·.stale)
  | _ => false

end Sys2Proof.Machine
end

