-- ==== Sys2Proof/Machine/Operands.lean ====
section
/-! DEFINITION. The operands that commands carry in their parameter bytes, read by the layouts of R200: keys,
clamped times, sets, the POINT LOAD block with its checks (R7, R8, R9), a POINTS item, the times
and parameters of the setting commands. -/

namespace Sys2Proof.Machine

/-- A value held into lo..hi (R96, R129, R138). -/
def clamp (lo hi n : Nat) : Nat := max lo (min hi n)

/-! ### Items of a POINTS frame (R24) -/

/-- One item of a POINTS frame; the upper four bits of the outstation and seven bits of the flags
are ignored (R24). -/
structure Item where
  outstation : Nat
  index : Nat
  value : Nat
  invalid : Bool
  deriving DecidableEq, Repr

/-- The item at a place of a POINTS body. -/
def itemAt (body : List Byte) (k : Nat) : Item :=
  { outstation := field16 body (1 + 6 * k) % 4096
    index := field8 body (3 + 6 * k)
    value := field16 body (4 + 6 * k)
    invalid := field8 body (6 + 6 * k) % 2 == 1 }

/-- The items of a POINTS body in frame order, or nothing where the count or the body length is
wrong (R24). -/
def itemsOf (body : List Byte) : List Item :=
  let count := field8 body 0
  if 1 ≤ count ∧ count ≤ 8 ∧ body.length = 1 + 6 * count then
    (List.range count).map (itemAt body)
  else []

/-! ### The POINT LOAD block (R200, 11.4.1) -/

/-- A threshold field: FFFFh is absent. -/
def thresholdField (b : List Byte) (i : Nat) : Option Nat :=
  if field16 b i = 0xFFFF then none else some (field16 b i)

/-- A field that is 0 or 1. -/
def boolOfCode : Nat → Option Bool
  | 0 => some false | 1 => some true
  | _ => none

/-- The ANALOGUE parameters of a block. -/
def analogueField (b : List Byte) : AnalogueParams :=
  { rawLo := field16 b 10, rawHi := field16 b 12, underMargin := field16 b 14,
    overMargin := field16 b 16, ll := thresholdField b 18, l := thresholdField b 20,
    h := thresholdField b 22, hh := thresholdField b 24, deadband := field8 b 26 }

/-- The class, display mode and class parameters of a block, with the span the class allows; none
where R7 refuses class, span, display mode, normal state or disagree alarm. -/
def classField (b : List Byte) : Option PointClass :=
  let mode := lowerNibble b 3
  let span := field8 b 5
  match upperNibble b 3 with
  | 1 =>
    match mode, boolOfCode (upperNibble b 8) with
    | 1, some normal => if span = 1 then some (.binary false normal) else none
    | 2, some normal => if span = 1 then some (.binary true normal) else none
    | _, _ => none
  | 2 =>
    match mode, boolOfCode (lowerNibble b 8) with
    | 0, some disagree => if span = 2 then some (.double (field8 b 9) disagree) else none
    | _, _ => none
  | 3 =>
    match mode with
    | 3 => if 1 ≤ span ∧ span ≤ 16 then some (.analogue .bar (analogueField b)) else none
    | 4 => if 1 ≤ span ∧ span ≤ 16 then some (.analogue .dot (analogueField b)) else none
    | _ => none
  | _ => none

/-- The fresh dynamic fields on an entry's configuration (R4). -/
def PointEntry.fresh (e : PointEntry) : PointEntry :=
  { e with
    raw := none, decoded := none, band := .normal, itemInvalid := false, sensorFault := false,
    travel := 0, alarm := if e.priority = 0 then none else some .fresh }

/-- The first check of POINT LOAD (R7): the entry the block describes, or none for BAD_PARAM. -/
def entryOfBlock (b : List Byte) : Option PointEntry :=
  let key := keyField b 0
  let group := field8 b 6
  let priority := upperNibble b 7
  if 1 ≤ key.outstation ∧ key.outstation ≤ 4095 ∧ group ≤ 16 ∧ priority ≤ 3 then
    match classField b, stalePolicyOfCode (lowerNibble b 7) with
    | some cls, some policy =>
      some (PointEntry.fresh
        { key := key, cls := cls, firstLamp := field8 b 4, span := field8 b 5, group := group,
          priority := priority, policy := policy, raw := none, decoded := none, band := .normal,
          itemInvalid := false, sensorFault := false, travel := 0, alarm := none })
    | _, _ => none
  else none

/-- A present threshold is at most 1000 (R9). -/
def thresholdInRange : Option Nat → Bool
  | some t => decide (t ≤ 1000)
  | none => true

/-- Of two thresholds that are both present the first is not above the second (R9). -/
def thresholdsOrdered : Option Nat → Option Nat → Bool
  | some a, some b => decide (a ≤ b)
  | _, _ => true

/-- The larger present low threshold: LL is not above L where both are present (R9). -/
def AnalogueParams.lowEdge (p : AnalogueParams) : Option Nat := p.l.orElse fun _ => p.ll

/-- The smaller present high threshold. -/
def AnalogueParams.highEdge (p : AnalogueParams) : Option Nat := p.h.orElse fun _ => p.hh

/-- The low and high sides cannot hold at once (R9, last condition). -/
def AnalogueParams.sidesApart (p : AnalogueParams) : Bool :=
  match p.lowEdge, p.highEdge with
  | some low, some high => decide (low + 2 * p.deadband < high)
  | _, _ => true

/-- The third check of POINT LOAD passes these ANALOGUE parameters (R9). -/
def AnalogueParams.acceptable (p : AnalogueParams) : Bool :=
  decide (p.rawLo < p.rawHi) && decide (p.underMargin ≤ p.rawLo) &&
    decide (p.overMargin ≤ 65535 - p.rawHi) && thresholdInRange p.ll && thresholdInRange p.l &&
    thresholdInRange p.h && thresholdInRange p.hh && thresholdsOrdered p.ll p.l &&
    thresholdsOrdered p.h p.hh && decide (p.deadband ≤ 100) && p.sidesApart

/-- The third check of POINT LOAD (R9); BINARY and DOUBLE loads pass it. -/
def PointClass.acceptable : PointClass → Bool
  | .analogue _ p => p.acceptable
  | _ => true

/-! ### Setting commands -/

/-- The parameters of SET TIMING (R124). -/
structure Timing where
  period : Nat
  window : Nat
  missLimit : Nat
  skewLimit : Nat
  deriving DecidableEq, Repr

/-- SET TIMING's parameters, or none for BAD_PARAM (R124). -/
def timingField (b : List Byte) : Option Timing :=
  let p := field16 b 0
  let w := field16 b 2
  if 100 ≤ p ∧ p ≤ 5000 ∧ p % 10 = 0 ∧ 10 ≤ w ∧ 2 * w ≤ p then
    some ⟨p, w, field8 b 4, field8 b 5⟩
  else none

/-- The clamped times of SET CADENCE (R129). -/
def cadenceTimesField (b : List Byte) : CadenceTimes :=
  ⟨clamp 1 250 (field8 b 1), clamp 1 250 (field8 b 2)⟩

/-- SET CADENCE's run request: true for RUN, false for STOP, none for BAD_PARAM (R129). -/
def runRequestField (b : List Byte) : Option Bool :=
  match field8 b 3 with
  | 1 => some true
  | 2 => some false
  | _ => none

/-- The level of LAMP OVERRIDE: none for BAD_PARAM, `some none` for RELEASE (R94). -/
def overrideField (n : Nat) : Option (Option Level) :=
  if n = 0 then some none else (levelOfCode n).map some

/-- The fields LINE SET stores in a line's record (R147). -/
structure LineSetting where
  direction : Direction
  polarity : Polarity
  function : InputFunction
  group : Nat
  source : OutputSource
  deriving DecidableEq, Repr

/-- LINE SET's line, or none for BAD_PARAM. -/
def lineField (n : Nat) : Option (Fin 8) := if h : n < 8 then some ⟨n, h⟩ else none

/-- LINE SET's record fields, or none for BAD_PARAM; the group is checked for ACK_GROUP alone, and
stored as 0 for every other function (R147). -/
def lineSettingField (b : List Byte) : Option LineSetting :=
  match directionOfCode (field8 b 1), polarityOfCode (field8 b 2),
    inputFunctionOfCode (field8 b 3), outputSourceOfCode (field8 b 5) with
  | some d, some p, some f, some src =>
    if f = .ackGroup then
      if 1 ≤ field8 b 4 ∧ field8 b 4 ≤ 16 then some ⟨d, p, f, field8 b 4, src⟩ else none
    else some ⟨d, p, f, 0, src⟩
  | _, _, _, _ => none

/-- The debounce time of LINE SET in ms: the number of 10 ms steps clamped into 1..25 (R138). -/
def debounceField (b : List Byte) : Nat := 10 * clamp 1 25 (field8 b 6)

end Sys2Proof.Machine
end

