-- ==== Sys2Proof/Machine/Lamps.lean ====
section
/-! DEFINITION. The Lamp Drive Unit: composition (R91, R92), the choice of the source (R89), bindings (R90),
overrides (R94), HOLD (R96 to R98), sensing (R100 to R102), the prove sweep (R105 to R109) and lamp
test (R99, R108, R142). -/

namespace Sys2Proof.Machine

/-! ### Composition (R91, R92) -/

/-- The value display V of an entry for lamp k of its span (R91). -/
def PointEntry.display (e : PointEntry) (k : Nat) : Level :=
  match e.cls, e.decoded with
  | .binary inverted _, some (.state b) => if b != inverted then .steady else .dark
  | .double _ _, some (.position .opened) => if k = 0 then .steady else .dark
  | .double _ _, some (.position .closed) => if k = 1 then .steady else .dark
  | .double _ _, some (.position .travel) => .flash .motion
  | .double _ _, some (.position .disagree) => .steady
  | .analogue .bar _, some (.level _ lit) => if k < lit then .steady else .dark
  | .analogue .dot _, some (.level _ lit) => if k + 1 = lit then .steady else .dark
  | _, _ => .dark

/-- Whether V lights any lamp of the entry. -/
def PointEntry.anyLit (e : PointEntry) : Bool :=
  (List.range e.span).any fun k => e.display k != .dark

/-- A cadence shown on the lamps lit in V, or on the first lamp where V lights none (R92, steps 2
to 4). -/
def PointEntry.showOnLit (e : PointEntry) (c : Cadence) (k : Nat) : Level :=
  if e.display k != .dark || (!e.anyLit && k == 0) then .flash c else .dark

/-- An alarm cadence: for a DOUBLE entry both lamps carry it, lit or not (R92, step 2). -/
def PointEntry.showAlarm (e : PointEntry) (c : Cadence) (k : Nat) : Level :=
  match e.cls with
  | .double _ _ => .flash c
  | _ => e.showOnLit c k

/-- The entry by its stale policy (R92, step 4). -/
def PointEntry.showUntrusted (e : PointEntry) (k : Nat) : Level :=
  match e.policy with
  | .wink => e.showOnLit .stale k
  | .keep => e.display k
  | .dark => .dark

/-- The alarm state of an entry; NORMAL for one with no alarm record. -/
def PointEntry.alarmState (e : PointEntry) : AlarmState :=
  match e.alarm with
  | some a => a.state
  | none => .normal

/-- The level an entry composes for lamp k of its span (R92). -/
def State.compose (s : State) (e : PointEntry) (k : Nat) : Level :=
  if s.quality e = .never then .dark
  else match e.alarmState with
    | .unack => e.showAlarm (if s.isHolder e then .first else .alert) k
    | .rtnUnack => e.showAlarm .ret k
    | _ => if s.quality e = .good then e.display k else e.showUntrusted k

/-! ### The source of a channel (R89) -/

/-- The level a step of a sweep gives lamp k of its bank (R106). -/
def stepLevel (step k : Nat) : Level := if step = k + 1 then .steady else .dark

/-- The bank of a sweep that is RUNNING or PAUSED holds a channel. -/
def State.inSweep (s : State) (c : Nat) : Bool :=
  match s.lamps.sweep with
  | some w => c / 16 == w.bank
  | none => false

/-- Cases 4 to 6 of R89: override, point, none. -/
def State.lowerLevel (s : State) (c : Nat) (ch : Channel) : Level × Source :=
  match ch.override with
  | some l => (l, .override)
  | none =>
    match ch.binding with
    | none => (.dark, .none)
    | some k =>
      match s.point k with
      | some e => (s.compose e (c - e.firstLamp), .point)
      | none => (.dark, .point)

/-- Cases 3 to 6 of R89: a sweep that is RUNNING on the channel's bank, and the cases below. -/
def State.sweepLevel (s : State) (c : Nat) (ch : Channel) : Level × Source :=
  match s.lamps.sweep with
  | some ⟨bank, step, .running _, _, _, _⟩ =>
    if c / 16 = bank then (stepLevel step (c % 16), .prove) else s.lowerLevel c ch
  | _ => s.lowerLevel c ch

/-- The driven level and the driving source of a channel: the first case of R89 that applies, and
DARK with source NONE at a PASS-ONLY controller (R112). -/
def State.drive (s : State) (c : Nat) (ch : Channel) : Level × Source :=
  if s.port.station = none then (.dark, .none)
  else if s.panel.lampTest then (.steady, .test)
  else if s.lamps.holdEnds.isSome then (ch.held.getD .dark, .hold)
  else s.sweepLevel c ch

/-- A channel record with the level and source it is driven with. -/
def Channel.driveAs (ch : Channel) (d : Level × Source) : Channel :=
  { ch with driven := d.1, source := d.2 }

/-- Every channel takes its level and source by R89 from the state now standing (R89, R93). Each
event that changes an input of R89 ends with it. -/
def State.settleLamps (s : State) : State := s.mapChannels fun c ch => ch.driveAs (s.drive c ch)

/-! ### Bindings (R5, R90) -/

/-- The channels of an entry's lamps bound to it; a channel it owned before and no longer owns
becomes unbound (R5, R14). -/
def State.bind (e : PointEntry) (s : State) : State :=
  s.mapChannels fun c ch =>
    if e.owns c then { ch with binding := some e.key }
    else if ch.binding = some e.key then { ch with binding := none } else ch

/-- Every channel bound to a key made unbound (R16). -/
def State.unbind (k : Key) (s : State) : State :=
  s.mapChannels fun _ ch => if ch.binding = some k then { ch with binding := none } else ch

/-- Every channel made unbound (R17). -/
def State.unbindAll (s : State) : State := s.mapChannels fun _ ch => { ch with binding := none }

/-- Every binding derived again from the entries held (R113). -/
def State.rebind (s : State) : State :=
  s.mapChannels fun c ch => { ch with binding := (s.points.find? (·.owns c)).map (·.key) }

/-! ### HOLD (R96 to R98) -/

/-- HOLD begins: each channel's held level is the one cases 4 to 6 of R89 give it now (R96). -/
def State.beginHold (limit : Nat) (s : State) : State :=
  { s with lamps := { s.lamps with
      channels := Table.mapIdx (fun c ch => { ch with held := some (s.lowerLevel c ch).1 })
        s.lamps.channels
      holdEnds := some (s.now + 1000 * limit) } }

/-- HOLD ends and every held level becomes absent (R98). -/
def State.endHold (s : State) : State :=
  { s with lamps := { s.lamps with
      channels := Table.mapIdx (fun _ ch => { ch with held := none }) s.lamps.channels
      holdEnds := none } }

/-- The remaining time of HOLD in whole seconds, rounded up; 0 when not in effect (R97). -/
def State.holdRemaining (s : State) : Nat :=
  match s.lamps.holdEnds with
  | some t => (t - s.now + 999) / 1000
  | none => 0

/-! ### Sensing (R100 to R103) -/

/-- The result of judging one sample of a channel: its new record, and the fault newly set. -/
structure Judged where
  channel : Channel
  newFault : Option FaultKind
  deriving DecidableEq, Repr

/-- A sample judged against the expectation (R102). -/
def Channel.judge (ch : Channel) (expected current : Bool) : Judged :=
  let ch := { ch with sensed := if current then .present else .absent }
  if current = expected then ⟨{ ch with mismatch := 0 }, none⟩
  else if ch.fault.isSome then ⟨{ ch with mismatch := min 2 (ch.mismatch + 1) }, none⟩
  else if ch.mismatch < 2 then ⟨{ ch with mismatch := ch.mismatch + 1 }, none⟩
  else
    let kind : FaultKind := if expected then .opened else .leaking
    ⟨{ ch with fault := some kind, mismatch := 0 }, some kind⟩

/-- What current the sense timer's instant expects of a channel, none where the channel has no such
instant (R100). -/
def State.timerExpects (s : State) (c : Nat) (ch : Channel) : Option Bool :=
  if s.inSweep c then none
  else match ch.driven with
    | .dark => some false
    | .steady => some true
    | .flash g => if (s.generators.get g).run = .stopped then some true else none

/-- What current the end of a phase expects of a channel, none where the channel has no such
instant (R101). -/
def State.phaseExpects (s : State) (g : Cadence) (ended : Phase) (c : Nat) (ch : Channel) :
    Option Bool :=
  if s.inSweep c then none
  else if ch.driven = .flash g then some (ended == .on) else none

/-- The faults newly set, in ascending channel order: for each its LAMP_FAULT record and then its
LAMP_FAULT cause (R102, R187). -/
def State.reportFaults (faults : List (Nat × FaultKind)) (s : State) : State :=
  faults.foldl (fun s f => (s.record (.lampFault f.1 f.2)).occur .lampFault) s

/-- One sense instant: every channel for which a current is expected is judged (R102). -/
def State.sense (expects : Nat → Channel → Option Bool) (currents : BitVec 256) (s : State) :
    State :=
  let judged (c : Nat) (ch : Channel) : Judged :=
    match expects c ch with
    | some expected => ch.judge expected (currents.getLsbD c)
    | none => ⟨ch, none⟩
  let faults := (s.lamps.channels.toList.zipIdx.filterMap fun p =>
    (judged p.2 p.1).newFault.map fun k => (p.2, k))
  (s.mapChannels fun c ch => (judged c ch).channel).reportFaults faults

/-- The sense timer expires and starts its next 200 ms; at an ASSIGNED controller it is a sense
instant (R100, R112). -/
def State.senseTimer (currents : BitVec 256) (s : State) : State :=
  let t : State := { s with lamps := { s.lamps with senseDue := s.lamps.senseDue + Config.senseInterval } }
  if s.assigned then t.sense t.timerExpects currents else t

/-! ### The prove sweep (R105 to R109) -/

/-- The sweep's state changed. -/
def State.withSweep (w : Option Sweep) (s : State) : State :=
  { s with lamps := { s.lamps with sweep := w } }

/-- The ms at which a dwell beginning now ends (R106). -/
def State.dwellFromNow (s : State) : Nat := s.now + Config.senseInterval

/-- An accepted PROVE (R105): the slot reserved, the sweep at step 0, RUNNING, or PAUSED while lamp
test is active. -/
def State.beginSweep (tag : Byte) (bank : Nat) (s : State) : State :=
  { s.withSweep (some
      { bank := bank, step := 0, tag := tag, failedDark := 0, failedOwn := 0
        run := if s.panel.lampTest then .paused else .running s.dwellFromNow }) with
    commands := { s.commands with reserved := s.commands.reserved + 1 } }

/-- The lamps of the bank that a step tests, and whether one of them fails with this current (R107). -/
def Sweep.tests (w : Sweep) (k : Nat) : Bool := w.step == 0 || w.step == k + 1

/-- The judgement of lamp k of the bank at the end of a dwell (R107): its channel's new record, and
the fault newly set. -/
def Sweep.judgeLamp (w : Sweep) (k : Nat) (current : Bool) (ch : Channel) : Judged :=
  let ch := { ch with sensed := if current then .present else .absent }
  let fail (kind : FaultKind) : Judged :=
    if ch.fault.isSome then ⟨{ ch with mismatch := 0 }, none⟩
    else ⟨{ ch with fault := some kind, mismatch := 0 }, some kind⟩
  if w.step = 0 then
    if current then fail .leaking else ⟨ch, none⟩
  else if !current then fail .opened
  else if w.failedDark.getLsbD k then ⟨ch, none⟩
  else ⟨{ ch with fault := none, mismatch := 0 }, none⟩

/-- The samples of the bank's 16 lamps, bit k for lamp k. -/
def bankSamples (bank : Nat) (currents : BitVec 256) : BitVec 16 := currents.extractLsb' (16 * bank) 16

/-- The sweep's own account of a step's failures (R107). -/
def Sweep.note (w : Sweep) (samples : BitVec 16) : Sweep :=
  if w.step = 0 then { w with failedDark := samples }
  else if samples.getLsbD (w.step - 1) then w
  else { w with failedOwn := w.failedOwn ||| (1#16 <<< (w.step - 1)) }

/-- The end of a dwell judged (R107): the tested lamps sampled in ascending channel order, each new
fault recorded; no cause occurs. -/
def State.judgeStep (w : Sweep) (samples : BitVec 16) (s : State) : State :=
  let judged (c : Nat) (ch : Channel) : Judged :=
    if c / 16 = w.bank ∧ w.tests (c % 16) then w.judgeLamp (c % 16) (samples.getLsbD (c % 16)) ch
    else ⟨ch, none⟩
  let faults := (s.lamps.channels.toList.zipIdx.filterMap fun p =>
    (judged p.2 p.1).newFault.map fun k => (p.2, k))
  faults.foldl (fun s f => s.record (.lampFault f.1 f.2))
    (s.mapChannels fun c ch => (judged c ch).channel)

/-- The fail set of a sweep: the lamps that failed step 0 or their own step (R109). -/
def Sweep.failSet (w : Sweep) : BitVec 16 := w.failedDark ||| w.failedOwn

/-- The result code of lamp k: PASS, LEAKING, OPEN or OPEN_AND_LEAKING (R109, R200). -/
def Sweep.lampResult (w : Sweep) (k : Nat) : Nat :=
  (if w.failedDark.getLsbD k then 1 else 0) + (if w.failedOwn.getLsbD k then 2 else 0)

/-- The data of the PROVE completion reply (R109; R200, 11.4.4). -/
def Sweep.replyData (w : Sweep) : List Byte :=
  byteOf w.bank :: (List.range 16).map (fun k => byteOf (w.lampResult k)) ++
    bytes16 (~~~ w.failSet).toNat ++ bytes16 w.failSet.toNat

/-- A REPLY frame's body: tag, command code, result code, data (R179). -/
def replyBody (tag code : Byte) (result : Result) (data : List Byte) : List Byte :=
  tag :: code :: byteOf result.code :: data

/-- The REPLY frame with a body, sent under a station number (R167, R179). -/
def replyFrame (station : Byte) (body : List Byte) : Frame :=
  { kind := kindReply, dest := Config.loopHead, src := station, body := body }

/-- The code of PROVE (R200, 11.4). -/
def proveCode : Byte := 0x53

/-- The sweep completes (R109): the completion reply takes the reserved slot behind the replies
queued, the sweep is IDLE, and a non-empty fail set makes the LAMP_FAULT cause occur once. -/
def State.completeSweep (w : Sweep) (s : State) : State :=
  let reply := replyFrame (s.port.station.getD 0) (replyBody w.tag proveCode .ok w.replyData)
  let t : State := { s.withSweep none with
    commands := { s.commands with
      replies := s.commands.replies ++ [reply], reserved := s.commands.reserved - 1 } }
  if w.failSet = 0 then t else t.occur .lampFault

/-- The end of a RUNNING sweep's dwell (R106, R107, R109): the step judged, then the next step with a
full dwell, or completion after step 16. -/
def State.endDwell (w : Sweep) (currents : BitVec 256) (s : State) : State :=
  let samples := bankSamples w.bank currents
  let t := s.judgeStep w samples
  let w' := w.note samples
  if w.step < Config.lastProveStep then
    (t.withSweep (some { w' with step := w.step + 1, run := .running t.dwellFromNow })).settleLamps
  else (t.completeSweep w').settleLamps

/-! ### Lamp test (R99, R108, R142) -/

/-- A sweep paused by lamp test, or resumed at its end with a full dwell of its step (R108). -/
def Sweep.follow (w : Sweep) (lampTest : Bool) (dwellEnds : Nat) : Sweep :=
  match w.run, lampTest with
  | .running _, true => { w with run := .paused }
  | .paused, false => { w with run := .running dwellEnds }
  | _, _ => w

/-- Lamp test follows the set of active LAMP_TEST lines, a sweep follows lamp test, and the lamps
follow both (R142). -/
def State.followLampTest (s : State) : State :=
  let t : State := { s with panel := { s.panel with lampTest := s.lampTestHeld } }
  (t.withSweep (s.lamps.sweep.map (·.follow s.lampTestHeld s.dwellFromNow))).settleLamps

end Sys2Proof.Machine
end

