-- ==== Sys2Proof/Machine/Alarm.lean ====
section
/-! DEFINITION. The Alarm Unit: transitions by evaluation (R65 to R68), counts (R69), horn (R70 to R73), first-up
(R74, R75), acknowledgement (R77, R79, R80) and retirement (R13, R83). Lamps are composed again at
the end of the event (`State.settleLamps`). -/

namespace Sys2Proof.Machine

/-- Whether a priority has the horn enabled (R73). -/
def AlarmUnit.enabled (a : AlarmUnit) (priority : Nat) : Bool :=
  match priority with
  | 1 => a.enable1
  | 2 => a.enable2
  | 3 => a.enable3
  | _ => false

/-- 1 for true, 0 for false. -/
def one (b : Bool) : Nat := if b then 1 else 0

/-- The counts adjusted for an entry that passes from one alarm state to another: out of the count it
was in and into the one it is in now (R69). -/
def AlarmUnit.move (a : AlarmUnit) (priority : Nat) (old new : AlarmState) : AlarmUnit :=
  let en := a.enabled priority
  { a with
    unack := a.unack + one (new == .unack) - one (old == .unack)
    ringback := a.ringback + one (new == .rtnUnack) - one (old == .rtnUnack)
    hornCount := a.hornCount + one (en && new == .unack) - one (en && old == .unack) }

/-- The horn is OFF once the horn count is 0 (R71). -/
def AlarmUnit.quiet (a : AlarmUnit) : AlarmUnit :=
  if a.hornCount = 0 then { a with horn := .off } else a

/-- A RAISED transition of an entry whose priority has the horn enabled sounds it (R70). -/
def AlarmUnit.sound (a : AlarmUnit) (priority : Nat) : AlarmUnit :=
  if a.enabled priority then { a with horn := .sounding } else a

/-- SILENCE makes a SOUNDING horn SILENCED (R72). -/
def AlarmUnit.silence (a : AlarmUnit) : AlarmUnit :=
  if a.horn = .sounding then { a with horn := .silenced } else a

/-- SILENCE of the section's horn (R72). -/
def State.silenceHorn (s : State) : State := { s with alarms := s.alarms.silence }

/-- First-up at a transition (R74, R75): a RAISED entry takes an enabled group with no holder; a
holder whose record reaches NORMAL is the holder no more. -/
def Group.follow (g : Group) (k : Key) (t : Transition) (new : AlarmState) : Group :=
  if t = .raised ∧ g.firstUp ∧ g.holder = none then { g with holder := some k }
  else if new = .normal ∧ g.holder = some k then { g with holder := none }
  else g

/-- A transition of an entry's alarm record from `old` to `new`, in the order of R68: the record, the
counts, first-up, the horn, the ALARM record with the cause R67 gives it. -/
def State.transition (e : PointEntry) (old new : AlarmRecord) (t : Transition)
    (cause : Option Cause) (s : State) : State :=
  let s1 : State :=
    { s with points := modifyPoint e.key (fun e => { e with alarm := some new }) s.points }
  let moved := s.alarms.move e.priority old.state new.state
  let s2 : State := { s1 with alarms := moved }
  let s3 := s2.modifyGroup e.group fun g => g.follow e.key t new.state
  let s4 : State :=
    { s3 with alarms := if t = .raised then moved.sound e.priority else moved.quiet }
  s4.record (.alarm e.key t cause new.generation)

/-- The record of a raise: UNACK with the cause, the next generation and the stamp standing now
(R66). -/
def AlarmRecord.raise (a : AlarmRecord) (c : Cause) (now : Stamp) : AlarmRecord :=
  { state := .unack, cause := some c, generation := a.generation + 1, raised := some now }

/-- The Alarm Unit applies a result of evaluation to an entry's record (R65). -/
def State.applyResult (e : PointEntry) (a : AlarmRecord) (result : Option Cause) (s : State) :
    State :=
  match a.state, result with
  | .normal, none => s
  | .rtnUnack, none => s
  | .unack, none => s.transition e a { a with state := .rtnUnack } .returned a.cause
  | .acked, none =>
    s.transition e a { a with state := .normal, cause := none } .cleared a.cause
  | .normal, some c => s.transition e a (a.raise c s.stamp) .raised (some c)
  | .rtnUnack, some c => s.transition e a (a.raise c s.stamp) .raised (some c)
  | _, some c =>
    if a.cause = some c then s
    else match a.cause with
      | some old =>
        if sameSideDrop old c then s.transition e a { a with cause := some c } .updated (some c)
        else s.transition e a (a.raise c s.stamp) .raised (some c)
      | none => s.transition e a (a.raise c s.stamp) .raised (some c)

/-- The entry held under a key is evaluated and the result handed to the Alarm Unit (R43); an entry
with no alarm record hands nothing. -/
def State.evaluatePoint (k : Key) (s : State) : State :=
  match s.point k with
  | some e =>
    match e.alarm with
    | some a => s.applyResult e a e.evaluate
    | none => s
  | none => s

/-! ### Acknowledgement (R77, R79, R80) -/

/-- Whether a record stands unacknowledged, in UNACK or RTN_UNACK. -/
def AlarmRecord.unacknowledged (a : AlarmRecord) : Bool :=
  a.state == .unack || a.state == .rtnUnack

/-- Whether an entry stands unacknowledged. -/
def PointEntry.unacknowledged (e : PointEntry) : Bool :=
  match e.alarm with
  | some a => a.unacknowledged
  | none => false

/-- The record after an acknowledgement (R77). -/
def AlarmRecord.acknowledged (a : AlarmRecord) : AlarmRecord :=
  match a.state with
  | .unack => { a with state := .acked }
  | .rtnUnack => { a with state := .normal, cause := none }
  | _ => a

/-- The acknowledgement of the entry held under a key, at the generation it carries (R77). -/
def State.acknowledge (k : Key) (s : State) : State :=
  match s.point k with
  | some e =>
    match e.alarm with
    | some a => if a.unacknowledged then s.transition e a a.acknowledged .acked a.cause else s
    | none => s
  | none => s

/-- The keys of the unacknowledged entries of a scope, in ascending key order. -/
def State.toAcknowledge (scope : PointEntry → Bool) (s : State) : List Key :=
  (s.points.filter fun e => scope e && e.unacknowledged).map (·.key)

/-- Every unacknowledged entry of a scope acknowledged, in ascending key order (R79, R80). -/
def State.acknowledgeAll (scope : PointEntry → Bool) (s : State) : State :=
  ((s.toAcknowledge scope).foldl (fun s k => s.acknowledge k) s).settleLamps

/-- The members of a group (R79). -/
def inGroup (g : Nat) (e : PointEntry) : Bool := e.group == g

/-- Every entry of the table (R80). -/
def anyEntry (_ : PointEntry) : Bool := true

/-! ### Retirement, clearing and the horn enables (R13, R83, R17, R73) -/

/-- An entry's part in the alarm sequence settled before it is replaced or dropped (R13, R83). An
entry with priority 0 or in NORMAL is retired without effect. -/
def State.retire (e : PointEntry) (s : State) : State :=
  match e.alarm with
  | some a =>
    if a.state = .normal then s
    else
      let s1 := s.record (.alarm e.key .removed a.cause a.generation)
      let s2 := s1.modifyGroup e.group fun g =>
        if g.holder = some e.key then { g with holder := none } else g
      { s2 with alarms := (s2.alarms.move e.priority a.state .normal).quiet }
  | none => s

/-- The counts 0 and the horn OFF, as at TABLE CLEAR and RESTART (R83, R86); the enables are kept. -/
def AlarmUnit.cleared (a : AlarmUnit) : AlarmUnit :=
  { a with unack := 0, ringback := 0, hornCount := 0, horn := .off }

/-- The number of entries in UNACK whose priority has the horn enabled (R73). -/
def hornCountOf (a : AlarmUnit) (points : List PointEntry) : Nat :=
  (points.filter fun e => e.alarmState == .unack && a.enabled e.priority).length

/-- HORN SET's effect (R73): the enables, the horn count worked out anew, the horn OFF at 0. -/
def State.setHornEnables (e1 e2 e3 : Bool) (s : State) : State :=
  let a := { s.alarms with enable1 := e1, enable2 := e2, enable3 := e3 }
  { s with alarms := { a with hornCount := hornCountOf a s.points }.quiet }

end Sys2Proof.Machine
end

