-- ==== Sys2Proof/Machine/Telemetry.lean ====
section
/-! DEFINITION. Quality return (R58, R59), POINTS items and class decoding (R24 to R42), travel timers (R35),
outstation reports and silence counting (R49 to R54). -/

namespace Sys2Proof.Machine

/-! ### Quality return (R58) -/

/-- The keys of the entries of a set whose quality passed, from the state before an event to the
state now, from OFFLINE or STALE to GOOD or SENSOR_FAULT, in ascending key order (R58). -/
def State.returning (s before : State) (scope : PointEntry → Bool) : List Key :=
  (s.points.filter fun e =>
    scope e && (before.quality e).withheld && (s.quality e).trusted).map (·.key)

/-- Quality return applied to a set of entries: each that returned is evaluated, one after another
in ascending key order (R58). -/
def State.qualityReturn (s before : State) (scope : PointEntry → Bool) : State :=
  (s.returning before scope).foldl (fun s k => s.evaluatePoint k) s

/-! ### Class decoding (R32 to R42) -/

/-- The position in the two lowest bits of a raw value (R33). -/
def positionOf (raw : Nat) : Position :=
  match raw % 4 with
  | 0 => .travel
  | 1 => .closed
  | 2 => .opened
  | _ => .disagree

/-- The travel count after a valid item (R34): kept while TRAVEL goes on, 0 otherwise. -/
def travelAfter (before : Option Decoded) (count : Nat) (now : Position) : Nat :=
  if before = some (.position .travel) ∧ now = .travel then count else 0

/-- The raw value lies from the fault floor to the fault ceiling (R37). -/
def AnalogueParams.passesFault (p : AnalogueParams) (raw : Nat) : Bool :=
  decide (p.rawLo - p.underMargin ≤ raw) && decide (raw ≤ p.rawHi + p.overMargin)

/-- The fill of a raw value past the fault check (R38). -/
def AnalogueParams.fill (p : AnalogueParams) (raw : Nat) : Nat :=
  (clamp p.rawLo p.rawHi raw - p.rawLo) * 1000 / (p.rawHi - p.rawLo)

/-- The lit count of a fill on a span (R39). -/
def litCount (fill span : Nat) : Nat := (fill * span + 500) / 1000

/-- A threshold is present and the fill is at or above it less a margin, held at 0 or above. -/
def atOrAbove (fill : Nat) (threshold : Option Nat) (margin : Nat) : Bool :=
  match threshold with
  | some t => decide (t - margin ≤ fill)
  | none => false

/-- A threshold is present and the fill is at or below it plus a margin, held at 1000 or below. -/
def atOrBelow (fill : Nat) (threshold : Option Nat) (margin : Nat) : Bool :=
  match threshold with
  | some t => decide (fill ≤ min 1000 (t + margin))
  | none => false

/-- The level two threshold tests give: 2 for the outer, 1 for the inner, 0 for neither. -/
def sideLevel (outer inner : Bool) : Nat := if outer then 2 else if inner then 1 else 0

/-- The high level: the larger of the entry level and the hold level of the band before (R40). -/
def AnalogueParams.highLevel (p : AnalogueParams) (before : Band) (f : Nat) : Nat :=
  let entry := sideLevel (atOrAbove f p.hh 0) (atOrAbove f p.h 0)
  let hold := match before with
    | .highHigh => sideLevel (atOrAbove f p.hh p.deadband) (atOrAbove f p.h p.deadband)
    | .high => sideLevel false (atOrAbove f p.h p.deadband)
    | _ => 0
  max entry hold

/-- The low level, which mirrors the high one (R41). -/
def AnalogueParams.lowLevel (p : AnalogueParams) (before : Band) (f : Nat) : Nat :=
  let entry := sideLevel (atOrBelow f p.ll 0) (atOrBelow f p.l 0)
  let hold := match before with
    | .lowLow => sideLevel (atOrBelow f p.ll p.deadband) (atOrBelow f p.l p.deadband)
    | .low => sideLevel false (atOrBelow f p.l p.deadband)
    | _ => 0
  max entry hold

/-- The band of the two levels (R42). -/
def bandOf (high low : Nat) : Band :=
  match high, low with
  | 0, 0 => .normal
  | 0, 1 => .low
  | 0, _ => .lowLow
  | 1, _ => .high
  | _, _ => .highHigh

/-- The new band of an ANALOGUE value (R40 to R42). -/
def AnalogueParams.band (p : AnalogueParams) (before : Band) (f : Nat) : Band :=
  bandOf (p.highLevel before f) (p.lowLevel before f)

/-- A valid item stored and decoded by the entry's class (R30, steps 1 to 3). -/
def PointEntry.store (e : PointEntry) (raw : Nat) : PointEntry :=
  let e := { e with itemInvalid := false, raw := some raw }
  match e.cls with
  | .binary _ _ => { e with decoded := some (.state (raw != 0)) }
  | .double _ _ =>
    { e with
      decoded := some (.position (positionOf raw))
      travel := travelAfter e.decoded e.travel (positionOf raw) }
  | .analogue _ p =>
    if p.passesFault raw then
      let f := p.fill raw
      { e with
        sensorFault := false, decoded := some (.level f (litCount f e.span))
        band := p.band e.band f }
    else { e with sensorFault := true }

/-! ### POINTS items (R25 to R31) -/

/-- The UNMAPPED count raised by one item (R28). -/
def State.countUnmapped (s : State) : State := { s with unmapped := saturate 65535 s.unmapped }

/-- An outstation heard from: silence count 0 and stale flag clear (R26). -/
def OutstationEntry.refresh (o : OutstationEntry) : OutstationEntry :=
  { o with silence := 0, stale := false }

/-- The refresh of an item's outstation, with quality return for its other points where the stale
flag was set (R26). -/
def State.refreshOutstation (o : OutstationEntry) (named : Key) (s : State) : State :=
  let t : State :=
    { s with outstations := modifyOutstation o.number OutstationEntry.refresh s.outstations }
  if o.stale then
    t.qualityReturn s fun e => e.key.outstation == o.number && e.key != named
  else t

/-- An item with the INVALID flag at the entry it names (R29). -/
def State.takeInvalid (k : Key) (s : State) : State :=
  { s with points := modifyPoint k (fun e => { e with itemInvalid := true }) s.points }

/-- A valid item at the entry it names: stored and decoded, then evaluated where the quality now
standing is GOOD or SENSOR_FAULT (R30). -/
def State.takeValid (k : Key) (raw : Nat) (s : State) : State :=
  let t : State := { s with points := modifyPoint k (·.store raw) s.points }
  match t.point k with
  | some e => if (t.quality e).trusted then t.evaluatePoint k else t
  | none => t

/-- One item of a POINTS frame (R25 to R30). -/
def State.takeItem (i : Item) (s : State) : State :=
  if i.outstation = 0 then s.countUnmapped
  else match s.outstation i.outstation with
    | none => s.countUnmapped
    | some o =>
      let k : Key := ⟨i.outstation, i.index⟩
      let t := s.refreshOutstation o k
      match t.point k with
      | none => t.countUnmapped
      | some _ => if i.invalid then t.takeInvalid k else t.takeValid k i.value

/-- The body of a POINTS frame taken, item after item in frame order (R24). -/
def State.takePoints (body : List Byte) (s : State) : State :=
  ((itemsOf body).foldl (fun s i => s.takeItem i) s).settleLamps

/-! ### Outstation reports (R49 to R51) -/

/-- An outstation entry after an UP report (R50). -/
def OutstationEntry.reportedUp (o : OutstationEntry) : OutstationEntry :=
  { o with comms := .up, silence := 0, stale := false }

/-- An outstation entry after a DOWN report (R51). -/
def OutstationEntry.reportedDown (o : OutstationEntry) : OutstationEntry :=
  { o with comms := .down }

/-- An UP report for a known outstation (R50). -/
def State.reportUp (n : Nat) (s : State) : State :=
  let t : State :=
    { s with outstations := modifyOutstation n OutstationEntry.reportedUp s.outstations }
  (t.qualityReturn s fun e => e.key.outstation == n).settleLamps

/-- A DOWN report for a known outstation (R51). -/
def State.reportDown (n : Nat) (s : State) : State :=
  State.settleLamps
    { s with outstations := modifyOutstation n OutstationEntry.reportedDown s.outstations }

/-- The body of an OUTSTATION frame taken (R49). -/
def State.takeOutstation (body : List Byte) (s : State) : State :=
  let n := field16 body 0 % 4096
  if body.length ≠ 3 ∨ n = 0 ∨ s.outstation n = none then s
  else match field8 body 2 with
    | 1 => s.reportUp n
    | 2 => s.reportDown n
    | _ => s

/-! ### Silence counting (R52, R53) and the stale limit (R54) -/

/-- The silence count of an outstation considered at an accepted marker (R52, R53). -/
def OutstationEntry.hush (limit : Nat) (o : OutstationEntry) : OutstationEntry :=
  if limit ≠ 0 ∧ o.silence < limit then
    { o with silence := o.silence + 1, stale := if o.silence + 1 = limit then true else o.stale }
  else o

/-- Whether the accepted marker brings an outstation to the stale limit (R53). -/
def OutstationEntry.reaches (limit : Nat) (o : OutstationEntry) : Bool :=
  limit != 0 && o.silence + 1 == limit

/-- Silence counting at an accepted marker, with STALE_OUTSTATION caused once for each outstation
brought to the limit (R52, R53). -/
def State.countSilence (s : State) : State :=
  (s.outstations.filter (·.reaches s.staleLimit)).foldl (fun s _ => s.occur .staleOutstation)
    { s with outstations := s.outstations.map (·.hush s.staleLimit) }

/-- SET STALE LIMIT's effect (R54). -/
def State.setStaleLimit (limit : Nat) (s : State) : State :=
  let t : State :=
    { s with staleLimit := limit, outstations := s.outstations.map OutstationEntry.refresh }
  (t.qualityReturn s fun e => s.staleFlag e.key.outstation).settleLamps

/-! ### Travel timers (R35) -/

/-- An accepted marker advances this entry's travel count: DOUBLE, in TRAVEL, below a nonzero travel
limit (R35). -/
def PointEntry.travelling (e : PointEntry) : Bool :=
  match e.cls with
  | .double limit _ =>
    e.decoded == some (.position .travel) && limit != 0 && decide (e.travel < limit)
  | _ => false

/-- Whether the travel count stands at the travel limit. -/
def PointEntry.atTravelLimit (e : PointEntry) : Bool :=
  match e.cls with
  | .double limit _ => e.travel == limit
  | _ => false

/-- One entry's travel count advanced, and the entry evaluated where that brings it to its limit
(R35). -/
def State.advanceTravel (k : Key) (s : State) : State :=
  let t : State :=
    { s with points := modifyPoint k (fun e => { e with travel := e.travel + 1 }) s.points }
  match t.point k with
  | some e => if e.atTravelLimit then t.evaluatePoint k else t
  | none => t

/-- The travel advance of an accepted marker: the entries that travel with quality GOOD when the
marker arrived, one after another in ascending key order (R35). -/
def State.advanceTravels (s arrival : State) : State :=
  ((arrival.points.filter fun e => e.travelling && arrival.quality e == .good).map (·.key)).foldl
    (fun s k => s.advanceTravel k) s

end Sys2Proof.Machine
end

