-- ==== Sys2Proof/Machine/LoopTime.lean ====
section
/-! DEFINITION. The Cycle Supervisor (R115 to R126, R136) and the Cadence Generators (R127 to R135). -/

namespace Sys2Proof.Machine

/-! ### Cadence generators -/

/-- The length of a phase in ms (R128). -/
def CadenceTimes.length (t : CadenceTimes) : Phase → Nat
  | .on => t.on * 10
  | .off => t.off * 10

/-- A pending reload, if any, becomes the times in force and is made absent (R128, R131, R133). -/
def Generator.applyReload (g : Generator) : Generator :=
  { g with times := g.reload.getD g.times, reload := none }

/-- A phase begins with the times in force (R128). -/
def Generator.begin (p : Phase) (now : Nat) (g : Generator) : Generator :=
  { g with phase := some (p, now + g.times.length p) }

/-- A STOPPING generator becomes STOPPED (R131). -/
def Generator.stop (g : Generator) : Generator :=
  { g.applyReload with run := .stopped, phase := none }

/-- A realignment at one generator (R133). -/
def Generator.realign (now : Nat) (g : Generator) : Generator :=
  match g.run with
  | .running => g.applyReload.begin .on now
  | .stopping => g.stop
  | .stopped => g

/-- The end of a phase of a RUNNING or STOPPING generator (R128). -/
def Generator.endPhase (ended : Phase) (now : Nat) (g : Generator) : Generator :=
  match ended, g.run with
  | .on, _ => g.begin .off now
  | .off, .stopping => g.stop
  | .off, _ => g.applyReload.begin .on now

/-- An accepted SET CADENCE at its generator: `run` for RUN, not `run` for STOP (R130). -/
def Generator.set (times : CadenceTimes) (run : Bool) (now : Nat) (g : Generator) : Generator :=
  match g.run with
  | .stopped =>
    let g := { g with times := times, reload := none }
    if run then { g with run := .running }.begin .on now else g
  | _ => { g with reload := some times, run := if run then .running else .stopping }

/-- Every generator realigned (R133). -/
def State.realign (s : State) : State :=
  { s with generators := s.generators.map (·.realign s.now) }

/-- The phase timer of a generator expires: the sense instant of its channels, then the next phase
(R101, R128). A PASS-ONLY controller has no sense instants (R112). -/
def State.endPhase (c : Cadence) (ended : Phase) (currents : BitVec 256) (s : State) : State :=
  let t := if s.assigned then s.sense (s.phaseExpects c ended) currents else s
  { t with generators := t.generators.modify c (·.endPhase ended s.now) }

/-! ### Supervision -/

/-- The late bound of a window reference (R115). -/
def Supervisor.lateBound (v : Supervisor) (reference : Nat) : Nat :=
  reference + v.period + v.window

/-- A marker taken in NO_SYNC or LOST starts supervision (R117, R122). -/
def Supervisor.start (v : Supervisor) (now : Nat) : Supervisor :=
  { v with state := .inStep, reference := some now, misses := 0, skews := 0 }

/-- A marker in the window (R118). -/
def Supervisor.inWindow (v : Supervisor) (now : Nat) : Supervisor :=
  { v with reference := some now, misses := 0, skews := 0 }

/-- An early marker advances the skew count (R119). -/
def Supervisor.early (v : Supervisor) : Supervisor :=
  if v.skews < v.skewLimit then { v with skews := v.skews + 1 } else v

/-- An early marker brings the skew count to its nonzero limit (R119). -/
def Supervisor.skewReached (v : Supervisor) : Bool := v.skews + 1 == v.skewLimit

/-- A marker is early in IN_STEP: t = arrival - reference is below P - W (R118). -/
def Supervisor.isEarly (v : Supervisor) (now : Nat) : Bool :=
  match v.reference with
  | some r => decide (now < r + v.period - v.window)
  | none => false

/-- Step 1 of an accepted marker: the cycle number recorded, the stamp offset restarted (R126). -/
def Supervisor.record (v : Supervisor) (cycle now : Nat) : Supervisor :=
  { v with cycle := cycle, stampFrom := now }

/-- Steps 4 to 6 of an accepted marker (R123): the judgement, quality return where the state leaves
LOST, realignment where the marker is in window with SYNC set. `arrival` is the state at the
marker's arrival. -/
def State.judgeMarker (s arrival : State) (sync : Bool) : State :=
  match s.supervisor.state with
  | .noSync => { s with supervisor := s.supervisor.start s.now }
  | .lost =>
    let t : State := { s with supervisor := s.supervisor.start s.now }
    t.qualityReturn arrival anyEntry
  | .inStep =>
    if s.supervisor.isEarly s.now then
      let t : State := { s with supervisor := s.supervisor.early }
      if s.supervisor.skewReached then t.occur .markerSkew else t
    else
      let t : State := { s with supervisor := s.supervisor.inWindow s.now }
      if sync then t.realign else t

/-- An accepted marker, in the order of R123. -/
def State.acceptMarker (cycle : Nat) (sync : Bool) (s : State) : State :=
  let s1 : State := { s with supervisor := s.supervisor.record cycle s.now }
  let s2 := s1.advanceTravels s
  let s3 := s2.countSilence
  (s3.judgeMarker s sync).settleLamps

/-- The body of a CYCLE frame taken; a body that is not three bytes is not taken (R116). -/
def State.takeCycle (body : List Byte) (s : State) : State :=
  if body.length = 3 then s.acceptMarker (field16 body 0) (field8 body 2 % 2 == 1) else s

/-- The miss count after a late-bound expiry in IN_STEP, and LOST at the limit (R120). -/
def Supervisor.miss (v : Supervisor) : Supervisor :=
  if v.missLimit = 0 then v
  else if v.misses + 1 < v.missLimit then { v with misses := v.misses + 1 }
  else { v with misses := v.missLimit, state := .lost }

/-- The late-bound timer of a reference expires (R120, R122). -/
def State.lateBoundExpires (reference : Nat) (s : State) : State :=
  let v := { s.supervisor with reference := some (reference + s.supervisor.period) }
  match s.supervisor.state with
  | .inStep =>
    let t : State := { s with supervisor := v.miss }
    if v.miss.state = .lost then (t.occur .loopLost).settleLamps else t
  | _ => { s with supervisor := v }

/-- The reference advanced by the period as often as the late bound needs to lie after now (R124). -/
def Supervisor.catchUp (v : Supervisor) (now reference : Nat) : Nat :=
  if now < v.lateBound reference then reference
  else reference + ((now - v.lateBound reference) / v.period + 1) * v.period

/-- An accepted SET TIMING (R124). -/
def State.setTiming (t : Timing) (s : State) : State :=
  let v := { s.supervisor with
    period := t.period, window := t.window, missLimit := t.missLimit, skewLimit := t.skewLimit,
    misses := 0, skews := 0 }
  { s with supervisor := { v with reference := v.reference.map (v.catchUp s.now) } }

/-- The supervisor returned to NO_SYNC with both counts 0, as at RESYNC and RESTART (R125, R136). -/
def Supervisor.unsync (v : Supervisor) : Supervisor :=
  { v with state := .noSync, reference := none, misses := 0, skews := 0 }

/-- RESYNC's effect (R125): quality return to every point where the state before was LOST. -/
def State.resync (s : State) : State :=
  let t := State.realign { s with supervisor := s.supervisor.unsync }
  (if s.supervisor.state = .lost then t.qualityReturn s anyEntry else t).settleLamps

end Sys2Proof.Machine
end

