-- ==== Sys2Proof/Machine/Panel.lean ====
section
/-! DEFINITION. The Panel Line Unit: pin changes and debounce (R138 to R140), presses (R141, R143), lamp test
(R142), LINE SET (R147, R148), LINE WRITE (R146), LINE READ (R149) and its restart (R150). -/

namespace Sys2Proof.Machine

/-- A change of the level outside a pin (R139). On an INPUT line it starts or restarts the debounce
timer; a level equal to the one standing is no change. -/
def Line.pinBecomes (level : PinLevel) (now : Nat) (l : Line) : Line :=
  if l.pin = level then l
  else
    { l with
      pin := level
      timer := match l.direction with
        | .input => some now
        | .output => l.timer }

/-- The debounced level becomes the pin level and the timer is dropped (R139, R140). -/
def Line.debounced (l : Line) : Line := { l with level := some l.pin, timer := none }

/-- The timer of a line dropped (R139). -/
def Line.dropTimer (l : Line) : Line := { l with timer := none }

/-- The function of a pressed line performed (R141). Lamp test follows the set of active lines
(R142) after it. -/
def State.performKey (l : Line) (s : State) : State :=
  match l.function with
  | .ackSection => s.acknowledgeAll anyEntry
  | .ackGroup => s.acknowledgeAll (inGroup l.group)
  | .silence => s.silenceHorn
  | .none => s
  | .lampTest => s
  | .report => s

/-- A press (R141): the KEY record, then the function; nothing for a line with function NONE, and
nothing at a PASS-ONLY controller (R150). -/
def State.press (i : Fin 8) (l : Line) (s : State) : State :=
  if l.function = .none ∨ ¬ s.assigned then s
  else (s.record (.key i.val l.function l.group)).performKey l

/-- The debounce timer of a line expires (R139, R140): a settling line takes its first level, with no
press; an unchanged level only drops the timer; a changed level is a press or a release. -/
def State.debounceExpires (i : Fin 8) (s : State) : State :=
  let l := s.line i
  match l.level with
  | none => (s.modifyLine i Line.debounced).followLampTest
  | some v =>
    if v = l.pin then s.modifyLine i Line.dropTimer
    else
      let t := s.modifyLine i Line.debounced
      if l.polarity.active l.pin then (t.press i l).followLampTest else t.followLampTest

/-- The ms at which a line's debounce timer expires, where it runs (R139). -/
def State.debounceDue (s : State) (i : Fin 8) : Option Nat :=
  (s.line i).timer.map (· + s.panel.debounce)

/-- A line's debounce timer has run out at this moment. -/
def State.debounceOver (s : State) (i : Fin 8) : Bool :=
  match s.debounceDue i with
  | some t => decide (t ≤ s.now)
  | none => false

/-- The fields LINE SET stores in a line's record, with the effect of a change of direction (R147,
R148): turned to OUTPUT the debounced level and the timer are dropped; turned to INPUT the line
begins settling. -/
def Line.configure (f : LineSetting) (now : Nat) (l : Line) : Line :=
  let stored := { l with
    direction := f.direction, polarity := f.polarity, function := f.function, group := f.group,
    source := f.source }
  match l.direction, f.direction with
  | .input, .output => { stored with level := none, timer := none }
  | .output, .input => { stored with level := none, timer := some now }
  | _, _ => stored

/-- The common debounce time set (R138). -/
def State.setDebounce (ms : Nat) (s : State) : State :=
  { s with panel := { s.panel with debounce := ms } }

/-- Every INPUT line whose pin has already held for the debounce time is debounced now, PL0 first
(R138). -/
def State.debounceAllOver (s : State) : State :=
  allLines.foldl (fun s i => if s.debounceOver i then s.debounceExpires i else s) s

/-- An accepted LINE SET (R147, R148, R138). -/
def State.setLine (i : Fin 8) (f : LineSetting) (debounce : Nat) (s : State) : State :=
  ((s.modifyLine i (·.configure f s.now)).followLampTest.setDebounce debounce).debounceAllOver

/-- The latches of the lines a mask selects (R146). -/
def State.writeLatches (mask values : Byte) (s : State) : State :=
  { s with panel := { s.panel with
      lines := Table.mapIdx
        (fun i l => if mask.getLsbD i then { l with latch := values.getLsbD i } else l)
        s.panel.lines } }

/-- The byte of a line in LINE READ (R149; R200, 11.4.4). -/
def State.lineByte (s : State) (l : Line) : Byte :=
  let pin := match l.direction with
    | .input => l.level
    | .output => s.drivenPin l
  let pinCode := match pin with
    | none => 0
    | some .low => 1
    | some .high => 2
  byteOf (l.direction.code + 2 * pinCode + 8 * one (s.lineActive l))

/-- A line at RESTART: an INPUT line begins settling (R150). -/
def Line.restart (now : Nat) (l : Line) : Line :=
  match l.direction with
  | .input => { l with level := none, timer := some now }
  | .output => l

/-- The Panel Line Unit at RESTART (R150): the INPUT lines settle and lamp test ends. -/
def State.restartPanel (s : State) : State :=
  { s with panel := { s.panel with
      lines := Table.mapIdx (fun _ l => l.restart s.now) s.panel.lines, lampTest := false } }

end Sys2Proof.Machine
end

