-- ==== Sys2Proof/Machine/Points.lean ====
section
/-! DEFINITION. The Point Table, the Outstation Table and the Group Table under command: POINT LOAD with its
checks (R6 to R14), POINT DROP (R16), TABLE CLEAR (R17), TABLE SCAN (R19), GROUP SET (R22). -/

namespace Sys2Proof.Machine

/-- The lamps of two entries meet (R10). -/
def PointEntry.overlaps (a b : PointEntry) : Bool :=
  decide (a.firstLamp < b.firstLamp + b.span) && decide (b.firstLamp < a.firstLamp + a.span)

/-- The second to sixth checks of POINT LOAD, in order (R8 to R11); the first code that refuses, or
none. -/
def State.loadRefusal (s : State) (e : PointEntry) : Option Result :=
  if 256 < e.firstLamp + e.span then some .lampRange
  else if !e.cls.acceptable then some .badParam
  else if s.points.any fun x => x.key != e.key && x.overlaps e then some .lampOverlap
  else if s.point e.key = none ∧ Config.maxPoints ≤ s.points.length then some .tableFull
  else if s.point e.key = none ∧ s.outstation e.key.outstation = none ∧
      Config.maxOutstations ≤ s.outstations.length then some .outstationFull
  else none

/-- An outstation entry at its creation (R20). -/
def OutstationEntry.create (n : Nat) : OutstationEntry :=
  { number := n, points := 1, comms := .unknown, silence := 0, stale := false }

/-- A point more names the outstation (R12). -/
def OutstationEntry.gain (o : OutstationEntry) : OutstationEntry := { o with points := o.points + 1 }

/-- A point less names the outstation (R16). -/
def OutstationEntry.lose (o : OutstationEntry) : OutstationEntry := { o with points := o.points - 1 }

/-- An outstation gains a point: its point count rises, or its entry is created (R12, R20). -/
def State.gainPoint (n : Nat) (s : State) : State :=
  match s.outstation n with
  | some _ =>
    { s with outstations := modifyOutstation n OutstationEntry.gain s.outstations }
  | none => { s with outstations := insertOutstation (OutstationEntry.create n) s.outstations }

/-- An outstation loses a point: its point count falls, and at 0 its entry is removed (R16, R20). -/
def State.losePoint (n : Nat) (s : State) : State :=
  { s with outstations :=
      (modifyOutstation n OutstationEntry.lose s.outstations).filter fun o =>
        !(o.number == n && o.points == 0) }

/-- A new entry inserted (R12). -/
def State.insertEntry (e : PointEntry) (s : State) : State :=
  ((State.gainPoint e.key.outstation
    { s with points := insertPoint e s.points }).bind e).settleLamps

/-- A held entry replaced: the old one retired, the new one fresh in its place (R14). -/
def State.replaceEntry (old e : PointEntry) (s : State) : State :=
  let t := s.retire old
  (State.bind e { t with points := modifyPoint e.key (fun _ => e) t.points }).settleLamps

/-- An accepted POINT LOAD (R6). -/
def State.loadEntry (e : PointEntry) (s : State) : State :=
  match s.point e.key with
  | some old => s.replaceEntry old e
  | none => s.insertEntry e

/-- POINT DROP of a held entry (R16). -/
def State.dropEntry (e : PointEntry) (s : State) : State :=
  let t := (s.retire e).unbind e.key
  (State.losePoint e.key.outstation
    { t with points := t.points.filter fun x => x.key != e.key }).settleLamps

/-- TABLE CLEAR's effect (R17, R83). -/
def State.clearTable (s : State) : State :=
  let t := (State.clearHolders { s with points := [], outstations := [] }).unbindAll
  (State.record (.tableCleared s.points.length)
    { t with alarms := t.alarms.cleared }).settleLamps

/-- The held keys not below a start key, in ascending order (R19). -/
def State.keysFrom (s : State) (start : Key) : List Key :=
  (s.points.map (·.key)).filter fun k => !k.lt start

/-- The TABLE SCAN data (R19; R200, 11.4.4). -/
def scanData (keys : List Key) : List Byte :=
  let shown := keys.take 16
  byteOf shown.length :: byteOf (one (decide (16 < keys.length))) ::
    shown.flatMap Key.bytes ++ List.replicate (3 * (16 - shown.length)) 0

/-- A group entry after GROUP SET (R22). -/
def Group.enable (on : Bool) (g : Group) : Group :=
  { firstUp := on, holder := if on then g.holder else none }

/-- GROUP SET's effect (R22). -/
def State.setGroup (g : Nat) (on : Bool) (s : State) : State :=
  (s.modifyGroup g (Group.enable on)).settleLamps

end Sys2Proof.Machine
end

