-- ==== Sys2Proof/Machine/Conditions.lean ====
section
/-! DEFINITION. The Condition Set under command (R193 to R196) and at RESTART (R199), and the RESTART sequence of
all blocks (R181). -/

namespace Sys2Proof.Machine

/-- The causes of the conditions of a set occur, in list order (R195). -/
def State.raiseConditions (set : Byte) (s : State) : State :=
  Condition.all.foldl (fun s c => if c.isIn set then s.occur c else s) s

/-- The conditions of a set whose standing cause holds are latched again, in list order (R193). -/
def State.relatch (set : Byte) (s : State) : State :=
  Condition.all.foldl (fun s c => if c.isIn set && s.standing c then s.occur c else s) s

/-- The latches of a set cleared, and the lost count with EVENT_LOSS (R194, steps 1 and 2). -/
def Reports.clear (set : Byte) (r : Reports) : Reports :=
  { r with
    latched := r.latched &&& ~~~ set
    lost := if Condition.eventLoss.isIn set then 0 else r.lost }

/-- CONDITION CLEAR's effect (R194). -/
def State.clearConditions (set : Byte) (s : State) : State :=
  { s with reports := s.reports.clear set }.relatch set

/-- REPORT MASK's effect (R196). -/
def State.setMask (set : Byte) (s : State) : State :=
  { s with reports := { s.reports with mask := set } }

/-! ### RESTART (R181) -/

/-- Step 1: the reply queue emptied with its reserved slots, and the Event Queue (R181, R199). -/
def State.emptyQueues (s : State) : State :=
  { s with
    commands := { s.commands with replies := [], reserved := 0 }
    reports := { s.reports with queue := [] } }

/-- The counts of the Loop Port and of the Command Unit become 0 (R170, R183). -/
def State.restartPort (s : State) : State :=
  { s with
    port := { s.port with
      localWait := 0, frameErrors := 0, badRun := 0, returned := 0, foreign := 0, forwardDrops := 0 }
    commands := { s.commands with dropped := 0 } }

/-- An outstation entry at RESTART (R62). -/
def OutstationEntry.restart (o : OutstationEntry) : OutstationEntry :=
  { o with comms := .unknown, silence := 0, stale := false }

/-- The Point Table, the UNMAPPED count, the outstations, and the holders (R23, R46, R62). -/
def State.restartTables (s : State) : State :=
  State.clearHolders
    { s with
      points := s.points.map PointEntry.fresh
      outstations := s.outstations.map OutstationEntry.restart
      unmapped := 0 }

/-- The Alarm Unit's counts and horn (R86), the Cycle Supervisor (R136) and the generators (R135). -/
def State.restartTime (s : State) : State :=
  State.realign { s with alarms := s.alarms.cleared, supervisor := s.supervisor.unsync }

/-- A channel at RESTART (R113). -/
def Channel.restart (ch : Channel) : Channel :=
  { ch with override := none, held := none, sensed := .notYet, mismatch := 0, fault := none }

/-- The Lamp Drive Unit: overrides, HOLD, sweep and faults gone, bindings derived again (R113). -/
def State.restartLamps (s : State) : State :=
  State.rebind
    { s with lamps := { s.lamps with
        channels := Table.mapIdx (fun _ ch => ch.restart) s.lamps.channels
        holdEnds := none
        sweep := none } }

/-- The Condition Set's step: latches clear, lost count 0, standing conditions latched again (R199). -/
def State.restartConditions (s : State) : State :=
  { s with reports := { s.reports with latched := 0, lost := 0 } }.relatch 0xFF

/-- Steps 1, 2 and 4 of RESTART: the queues, each block in the order of R181, and the STARTED record
with cause COMMAND. Step 3, the reply, is the Command Unit's. -/
def State.restartAll (s : State) : State :=
  let t := s.emptyQueues.restartPort.restartTables.restartTime.restartLamps.restartPanel
  t.settleLamps.restartConditions.record (.started .command (s.port.station.getD 0))

end Sys2Proof.Machine
end

