-- ==== Sys2Proof/Machine/CommandUnit.lean ====
section
/-! DEFINITION. The Command Unit: the checks, effect and reply of every command by its owning rule, the command
codes with their parameter lengths (R200, 11.4), the taking of an addressed and of a broadcast
command (R172 to R179). -/

namespace Sys2Proof.Machine

/-- What a command leaves: the state, and the reply it is answered with; none for an accepted PROVE,
answered at the sweep's completion (R105, R175). -/
structure Answer where
  state : State
  reply : Option (Result × List Byte)

/-- A command carried out, with its OK data. -/
def Answer.ok (s : State) (data : List Byte := []) : Answer := ⟨s, some (.ok, data)⟩

/-- A command refused: nothing changes and no data (R175). -/
def Answer.refuse (s : State) (r : Result) : Answer := ⟨s, some (r, [])⟩

/-! ### Commands and Replies, The Panel Loop -/

/-- The STATUS data (R180; R200, 11.4.2). -/
def State.statusData (s : State) : List Byte :=
  [s.port.station.getD 0, s.port.straps.zeroExtend 8, byteOf s.supervisor.state.code,
    byteOf s.supervisor.misses, byteOf s.supervisor.skews] ++ bytes16 s.supervisor.cycle ++
  [s.reports.latched, s.reports.mask, byteOf s.reports.lost, byteOf s.reports.queue.length,
    byteOf s.commands.dropped, byteOf s.commands.replies.length, byteOf s.commands.reserved] ++
  bytes16 s.port.frameErrors ++
  [byteOf s.port.badRun, byteOf s.port.returned, byteOf s.port.foreign] ++
  bytes16 s.port.forwardDrops ++ bytes16 s.unmapped ++ bytes16 s.points.length ++
  [byteOf s.outstations.length] ++ bytes16 s.alarms.unack ++ bytes16 s.alarms.ringback ++
  bytes16 s.alarms.hornCount ++
  [byteOf s.alarms.horn.code, byteOf (one s.lamps.holdEnds.isSome)] ++ bytes16 s.holdRemaining ++
  (match s.lamps.sweep with
    | none => [0, 0, 0]
    | some ⟨bank, step, .running _, _, _, _⟩ => [1, byteOf bank, byteOf step]
    | some ⟨bank, step, .paused, _, _, _⟩ => [2, byteOf bank, byteOf step]) ++
  bytes16 s.faultedLamps

/-- STATUS (R180). -/
def takeStatus (s : State) : Answer := .ok s s.statusData

/-- SET STATION (R161); its reply goes under the old number, which the Command Unit reads before the
command's effect. -/
def takeSetStation (b : List Byte) (s : State) : Answer :=
  let n := field8 b 0
  if 1 ≤ n ∧ n ≤ 62 then .ok { s with port := { s.port with station := some (byteOf n) } }
  else .refuse s .badParam

/-- RESTART (R181). -/
def takeRestart (s : State) : Answer := .ok s.restartAll

/-! ### Loop Time -/

/-- SET TIMING (R124). -/
def takeSetTiming (b : List Byte) (s : State) : Answer :=
  match timingField b with
  | some t => .ok (s.setTiming t)
  | none => .refuse s .badParam

/-- RESYNC (R125). -/
def takeResync (s : State) : Answer := .ok s.resync

/-- SET CADENCE (R129, R130). -/
def takeSetCadence (b : List Byte) (s : State) : Answer :=
  match cadenceOfCode (field8 b 0), runRequestField b with
  | some c, some run =>
    .ok { s with generators := s.generators.modify c (·.set (cadenceTimesField b) run s.now) }
  | _, _ => .refuse s .badParam

/-! ### The Point Table -/

/-- POINT LOAD (R6 to R14). -/
def takePointLoad (b : List Byte) (s : State) : Answer :=
  match entryOfBlock b with
  | none => .refuse s .badParam
  | some e =>
    match s.loadRefusal e with
    | some r => .refuse s r
    | none => .ok (s.loadEntry e) (bytes16 (s.loadEntry e).points.length)

/-- POINT DROP (R16). -/
def takePointDrop (b : List Byte) (s : State) : Answer :=
  match s.point (keyField b 0) with
  | none => .refuse s .notFound
  | some e => .ok (s.dropEntry e) (bytes16 (s.dropEntry e).points.length)

/-- POINT READ (R18). -/
def takePointRead (b : List Byte) (s : State) : Answer :=
  match s.point (keyField b 0) with
  | none => .refuse s .notFound
  | some e => .ok s (e.blockBytes ++ e.dynamicBytes (s.quality e).code (s.isHolder e))

/-- TABLE CLEAR (R17). -/
def takeTableClear (s : State) : Answer := .ok s.clearTable (bytes16 s.points.length)

/-- TABLE SCAN (R19). -/
def takeTableScan (b : List Byte) (s : State) : Answer :=
  .ok s (scanData (s.keysFrom (keyField b 0)))

/-- GROUP SET (R22). -/
def takeGroupSet (b : List Byte) (s : State) : Answer :=
  let g := field8 b 0
  match boolOfCode (field8 b 1) with
  | some on => if 1 ≤ g ∧ g ≤ 16 then .ok (s.setGroup g on) else .refuse s .badParam
  | none => .refuse s .badParam

/-! ### Quality and Outstation Supervision -/

/-- OUTSTATION READ (R61). -/
def takeOutstationRead (b : List Byte) (s : State) : Answer :=
  match s.outstation (field16 b 0) with
  | none => .refuse s .notFound
  | some o => .ok s (o.bytes s.staleLimit)

/-- SET STALE LIMIT (R54). -/
def takeSetStaleLimit (b : List Byte) (s : State) : Answer := .ok (s.setStaleLimit (field8 b 0))

/-! ### The Alarm Sequence -/

/-- The ACK POINT data: alarm state and generation (R76). -/
def AlarmRecord.ackData (a : AlarmRecord) : List Byte := [byteOf a.state.code, a.generation]

/-- ACK POINT (R76, R77). -/
def takeAckPoint (b : List Byte) (s : State) : Answer :=
  match s.point (keyField b 0) with
  | none => .refuse s .notFound
  | some e =>
    match e.alarm with
    | none => .refuse s .noAlarm
    | some a =>
      if !a.unacknowledged then ⟨s, some (.nothingToAck, a.ackData)⟩
      else if a.generation ≠ b.getD 3 0 then ⟨s, some (.staleAck, a.ackData)⟩
      else .ok (s.acknowledge e.key).settleLamps a.acknowledged.ackData

/-- ACK GROUP (R79). -/
def takeAckGroup (b : List Byte) (s : State) : Answer :=
  let g := field8 b 0
  if 1 ≤ g ∧ g ≤ 16 then
    .ok (s.acknowledgeAll (inGroup g)) (bytes16 (s.toAcknowledge (inGroup g)).length)
  else .refuse s .badParam

/-- ACK ALL (R80). -/
def takeAckAll (s : State) : Answer :=
  .ok (s.acknowledgeAll anyEntry) (bytes16 (s.toAcknowledge anyEntry).length)

/-- SILENCE (R72). -/
def takeSilence (s : State) : Answer := .ok s.silenceHorn

/-- HORN SET (R73). -/
def takeHornSet (b : List Byte) (s : State) : Answer :=
  match boolOfCode (field8 b 0), boolOfCode (field8 b 1), boolOfCode (field8 b 2) with
  | some e1, some e2, some e3 => .ok (s.setHornEnables e1 e2 e3)
  | _, _, _ => .refuse s .badParam

/-! ### Lamp Channels -/

/-- The override of a run of channels set, or released to none (R94). -/
def State.setOverrides (first count : Nat) (l : Option Level) (s : State) : State :=
  (s.mapChannels fun c ch =>
    if first ≤ c ∧ c < first + count then { ch with override := l } else ch).settleLamps

/-- LAMP OVERRIDE (R94). -/
def takeLampOverride (b : List Byte) (s : State) : Answer :=
  let first := field8 b 0
  let count := field16 b 1
  match overrideField (field8 b 3) with
  | none => .refuse s .badParam
  | some l =>
    if ¬ (1 ≤ count ∧ count ≤ 256) then .refuse s .badParam
    else if 256 < first + count then .refuse s .lampRange
    else .ok (s.setOverrides first count l)

/-- The records of a bank's 16 channels, in channel order (R87). -/
def State.bankChannels (s : State) (bank : Nat) : List Channel :=
  (s.lamps.channels.toList.drop (16 * bank)).take 16

/-- The LAMP READ data (R111; R200, 11.4.4). -/
def State.lampReadData (s : State) (bank : Nat) : List Byte :=
  byteOf bank :: (s.bankChannels bank).flatMap Channel.bytes ++
    [byteOf s.generators.alert.run.code, byteOf s.generators.first.run.code,
      byteOf s.generators.ret.run.code, byteOf s.generators.motion.run.code,
      byteOf s.generators.stale.run.code]

/-- LAMP READ (R111). -/
def takeLampRead (b : List Byte) (s : State) : Answer :=
  if 15 < field8 b 0 then .refuse s .badParam else .ok s (s.lampReadData (field8 b 0))

/-- HOLD ON past the mode check (R96). -/
def State.holdOn (limit : Nat) (s : State) : Answer :=
  if s.lamps.sweep.isSome then .refuse s .busy
  else if s.lamps.holdEnds.isSome then
    .ok { s with lamps := { s.lamps with holdEnds := some (s.now + 1000 * clamp 10 600 limit) } }
  else .ok (s.beginHold (clamp 10 600 limit)).settleLamps

/-- HOLD ended, with its HOLD_ENDED record (R98). -/
def State.endHoldWith (cause : HoldEnd) (s : State) : State :=
  (s.endHold.record (.holdEnded cause)).settleLamps

/-- HOLD OFF past the mode check (R98). -/
def State.holdOff (s : State) : Answer :=
  if s.lamps.holdEnds.isSome then .ok (s.endHoldWith .command) else .ok s

/-- HOLD (R96, R98). -/
def takeHold (b : List Byte) (s : State) : Answer :=
  match field8 b 0 with
  | 0 => s.holdOff
  | 1 => s.holdOn (field16 b 1)
  | _ => .refuse s .badParam

/-- PROVE (R105); an accepted one is answered at the sweep's completion. -/
def takeProve (tag : Byte) (b : List Byte) (s : State) : Answer :=
  let bank := field8 b 0
  if 15 < bank then .refuse s .badParam
  else if s.lamps.sweep.isSome ∨ s.lamps.holdEnds.isSome then .refuse s .busy
  else ⟨(s.beginSweep tag bank).settleLamps, none⟩

/-- The channels a bank value of CLEAR LAMP FAULTS names: one bank, or all for FFh (R104). -/
def bankNames (bank c : Nat) : Bool := bank == 255 || c / 16 == bank

/-- The faults and mismatch runs of the named channels cleared (R104). -/
def State.clearFaults (bank : Nat) (s : State) : State :=
  s.mapChannels fun c ch =>
    if bankNames bank c then { ch with fault := none, mismatch := 0 } else ch

/-- The number of FAULTED channels a bank value names (R104). -/
def State.faultsIn (s : State) (bank : Nat) : Nat :=
  (s.lamps.channels.toList.zipIdx.filter fun p => bankNames bank p.2 && p.1.fault.isSome).length

/-- CLEAR LAMP FAULTS (R104). -/
def takeClearLampFaults (b : List Byte) (s : State) : Answer :=
  let bank := field8 b 0
  if bank ≤ 15 ∨ bank = 255 then .ok (s.clearFaults bank) (bytes16 (s.faultsIn bank))
  else .refuse s .badParam

/-! ### Panel Lines -/

/-- LINE SET (R147, R148). -/
def takeLineSet (b : List Byte) (s : State) : Answer :=
  match lineField (field8 b 0), lineSettingField b with
  | some i, some f => .ok (s.setLine i f (debounceField b))
  | _, _ => .refuse s .badParam

/-- LINE WRITE (R146). -/
def takeLineWrite (b : List Byte) (s : State) : Answer :=
  .ok (s.writeLatches (b.getD 0 0) (b.getD 1 0))

/-- LINE READ (R149). -/
def takeLineRead (s : State) : Answer := .ok s (s.panel.lines.toList.map s.lineByte)

/-! ### Events and Conditions -/

/-- CONDITION CLEAR (R194). -/
def takeConditionClear (b : List Byte) (s : State) : Answer :=
  .ok (s.clearConditions (b.getD 0 0)) [(s.clearConditions (b.getD 0 0)).reports.latched]

/-- CONDITION RAISE (R195). -/
def takeConditionRaise (b : List Byte) (s : State) : Answer :=
  .ok (s.raiseConditions (b.getD 0 0)) [(s.raiseConditions (b.getD 0 0)).reports.latched]

/-- REPORT MASK (R196). -/
def takeReportMask (b : List Byte) (s : State) : Answer := .ok (s.setMask (b.getD 0 0))

/-! ### The command list -/

/-- A command of the part: the length of its parameters, whether it is broadcast-allowed, and what it
does past the length check, given its tag and parameters (R175, R176). -/
structure CommandRule where
  length : Nat
  broadcast : Bool
  run : Byte → List Byte → State → Answer

/-- The commands of the part by their codes (R200, 11.4; R176 for the broadcast-allowed ones). -/
def commandRule (code : Byte) : Option CommandRule :=
  match code.toNat with
  | 0x01 => some ⟨0, false, fun _ _ => takeStatus⟩
  | 0x02 => some ⟨1, false, fun _ => takeSetStation⟩
  | 0x03 => some ⟨0, true, fun _ _ => takeRestart⟩
  | 0x10 => some ⟨6, true, fun _ => takeSetTiming⟩
  | 0x11 => some ⟨0, true, fun _ _ => takeResync⟩
  | 0x12 => some ⟨4, true, fun _ => takeSetCadence⟩
  | 0x20 => some ⟨27, false, fun _ => takePointLoad⟩
  | 0x21 => some ⟨3, false, fun _ => takePointDrop⟩
  | 0x22 => some ⟨3, false, fun _ => takePointRead⟩
  | 0x23 => some ⟨0, false, fun _ _ => takeTableClear⟩
  | 0x24 => some ⟨3, false, fun _ => takeTableScan⟩
  | 0x25 => some ⟨2, false, fun _ => takeGroupSet⟩
  | 0x30 => some ⟨2, false, fun _ => takeOutstationRead⟩
  | 0x31 => some ⟨1, false, fun _ => takeSetStaleLimit⟩
  | 0x40 => some ⟨4, false, fun _ => takeAckPoint⟩
  | 0x41 => some ⟨1, false, fun _ => takeAckGroup⟩
  | 0x42 => some ⟨0, true, fun _ _ => takeAckAll⟩
  | 0x43 => some ⟨0, true, fun _ _ => takeSilence⟩
  | 0x44 => some ⟨3, false, fun _ => takeHornSet⟩
  | 0x50 => some ⟨4, false, fun _ => takeLampOverride⟩
  | 0x51 => some ⟨1, false, fun _ => takeLampRead⟩
  | 0x52 => some ⟨3, true, fun _ => takeHold⟩
  | 0x53 => some ⟨1, false, takeProve⟩
  | 0x54 => some ⟨1, false, fun _ => takeClearLampFaults⟩
  | 0x60 => some ⟨7, false, fun _ => takeLineSet⟩
  | 0x61 => some ⟨2, false, fun _ => takeLineWrite⟩
  | 0x62 => some ⟨0, false, fun _ _ => takeLineRead⟩
  | 0x70 => some ⟨1, true, fun _ => takeConditionClear⟩
  | 0x71 => some ⟨1, false, fun _ => takeConditionRaise⟩
  | 0x72 => some ⟨1, false, fun _ => takeReportMask⟩
  | _ => none

/-! ### Taking a command (R172 to R179) -/

/-- A slot of the reply queue is free (R173). -/
def CommandUnit.hasRoom (u : CommandUnit) : Bool :=
  decide (u.replies.length + u.reserved < Config.replySlots)

/-- An addressed command dropped for want of a reply slot (R174). -/
def State.dropCommand (s : State) : State :=
  State.occur .commandOverrun
    { s with commands := { s.commands with dropped := saturate 255 s.commands.dropped } }

/-- A reply placed in the queue behind those queued (R173, R179). -/
def State.placeReply (f : Frame) (s : State) : State :=
  { s with commands := { s.commands with replies := s.commands.replies ++ [f] } }

/-- What a command code and parameters come to: the checks of R175 in order, then the command. -/
def State.execute (tag code : Byte) (params : List Byte) (s : State) : Answer :=
  match commandRule code with
  | none => .refuse s .unknownCommand
  | some r => if params.length = r.length then r.run tag params s else .refuse s .badLength

/-- An answer's reply, if any, placed under the station number that stood when the command was taken
(R161, R179). -/
def Answer.settle (a : Answer) (station tag code : Byte) : State :=
  match a.reply with
  | some (r, data) => a.state.placeReply (replyFrame station (replyBody tag code r data))
  | none => a.state

/-- An addressed command with a command code present (R174, R175). -/
def State.takeAddressed (station tag code : Byte) (params : List Byte) (s : State) : State :=
  if s.commands.hasRoom then (s.execute tag code params).settle station tag code
  else s.dropCommand

/-- A broadcast command with a command code present (R176): executed where it is broadcast-allowed
and passes every check, with no reply. A refused one changes nothing. -/
def State.takeBroadcast (tag code : Byte) (params : List Byte) (s : State) : State :=
  match commandRule code with
  | none => s
  | some r =>
    if r.broadcast ∧ params.length = r.length then (r.run tag params s).state else s

/-- The body of a COMMAND frame addressed to the station; fewer than two bytes are discarded (R172). -/
def State.takeAddressedBody (station : Byte) (body : List Byte) (s : State) : State :=
  match body with
  | tag :: code :: params => s.takeAddressed station tag code params
  | _ => s

/-- The body of a broadcast COMMAND frame (R172, R176). -/
def State.takeBroadcastBody (body : List Byte) (s : State) : State :=
  match body with
  | tag :: code :: params => s.takeBroadcast tag code params
  | _ => s

end Sys2Proof.Machine
end

