-- ==== Sys2Proof/Machine/Port.lean ====
section
/-! DEFINITION. The Loop Port: receiving bytes and frames (R155 to R158), the forwarding decision (R162 to R165),
the egress arbiter (R166, R167, R189), the level at LOOP OUT (R152, R171). -/

namespace Sys2Proof.Machine

/-- The receiver back in HUNTING, with what it had of a frame discarded. -/
def State.hunt (s : State) : State := { s with port := { s.port with receiver := .hunting } }

/-- The counts of a frame error at an ASSIGNED controller, and the FRAME_ERRORS cause where the bad
run reaches 8 (R158, R160). -/
def State.countFrameError (s : State) : State :=
  if s.assigned then
    let t : State := { s with port := { s.port with
      frameErrors := saturate 65535 s.port.frameErrors
      badRun := saturate Config.badRunLimit s.port.badRun } }
    if s.port.badRun + 1 = Config.badRunLimit then t.occur .frameErrors else t
  else s

/-- A frame error: the bytes discarded, the receiver HUNTING, the error counted (R155 to R158). -/
def State.frameError (s : State) : State := s.hunt.countFrameError

/-- A frame to be forwarded placed in the through FIFO, or discarded from a full one (R165, R160). -/
def State.forward (f : Frame) (s : State) : State :=
  if s.port.fifo.length < Config.fifoDepth then
    { s with port := { s.port with fifo := s.port.fifo ++ [f] } }
  else if s.assigned then
    State.occur .forwardDrop
      { s with port := { s.port with forwardDrops := saturate 65535 s.port.forwardDrops } }
  else s

/-- The RETURNED count raised (R164). -/
def State.countReturned (s : State) : State :=
  { s with port := { s.port with returned := saturate 255 s.port.returned } }

/-- The FOREIGN count raised (R164). -/
def State.countForeign (s : State) : State :=
  { s with port := { s.port with foreign := saturate 255 s.port.foreign } }

/-- The kinds that come from the loop head and act whatever their DEST: CYCLE, POINTS, OUTSTATION. -/
def isTelemetry (kind : Byte) : Bool :=
  kind == kindCycle || kind == kindPoints || kind == kindOutstation

/-- A telemetry frame handed to the block that takes it (R162). -/
def State.takeTelemetry (f : Frame) (s : State) : State :=
  if f.kind = kindCycle then s.takeCycle f.body
  else if f.kind = kindPoints then s.takePoints f.body
  else s.takeOutstation f.body

/-- The forwarding decision of an ASSIGNED controller, row by row, and the taking of the frame by its
block after it (R162, R163). -/
def State.forwardingDecision (station : Byte) (f : Frame) (s : State) : State :=
  if f.src = station then s.countReturned
  else if isTelemetry f.kind ∧ f.src = Config.loopHead then (s.forward f).takeTelemetry f
  else if (isTelemetry f.kind ∨ f.kind = kindCommand) ∧ f.src ≠ Config.loopHead then
    s.countForeign.forward f
  else if f.kind = kindCommand then
    if f.dest = station then s.takeAddressedBody station f.body
    else if f.dest = 0 then (s.forward f).takeBroadcastBody f.body
    else s.forward f
  else s.forward f

/-- What the reception of a good frame leaves before the decision: the receiver HUNTING and, at an
ASSIGNED controller, the bad run 0 (R155, R157). -/
def State.received (s : State) : State :=
  { s with port := { s.port with
      receiver := .hunting
      badRun := if s.port.station.isSome then 0 else s.port.badRun } }

/-- The arrival of a good frame (R157, R160, R163). -/
def State.arrive (f : Frame) (s : State) : State :=
  match s.port.station with
  | some station => s.received.forwardingDecision station f
  | none => s.received.forward f

/-- The CRC of two bytes, high byte first (R154). -/
def crcOfBytes (hi lo : Byte) : BitVec 16 := hi ++ lo

/-- The bytes of a whole frame from its LENGTH to its last CRC byte judged (R157). -/
def State.judgeFrame (bytes : List Byte) (s : State) : State :=
  let n := bytes.length
  let content := bytes.take (n - 2)
  if crc16 content = crcOfBytes (bytes.getD (n - 2) 0) (bytes.getD (n - 1) 0) then
    match content with
    | _ :: kind :: dest :: src :: body => s.arrive ⟨kind, dest, src, body⟩
    | _ => s.hunt
  else s.frameError

/-- The receiver in a state. -/
def State.withReceiver (r : Receiver) (s : State) : State :=
  { s with port := { s.port with receiver := r } }

/-- A byte received on LOOP IN, at the end of its character (R155); the gap timer starts again at that
end (R156). -/
def State.receiveByte (b : Byte) (s : State) : State :=
  let gap := s.clock + Config.gapTime
  match s.port.receiver with
  | .hunting => if b = lead then s.withReceiver (.length gap) else s
  | .length _ =>
    if 3 ≤ b.toNat ∧ b.toNat ≤ 120 then s.withReceiver (.collecting (b.toNat + 2) [b] gap)
    else s.frameError
  | .collecting toCome got _ =>
    if toCome ≤ 1 then s.judgeFrame (got ++ [b])
    else s.withReceiver (.collecting (toCome - 1) (got ++ [b]) gap)

/-- The µs at which the gap timer expires, where it runs (R156). -/
def Receiver.gapEnds : Receiver → Option Nat
  | .hunting => none
  | .length g => some g
  | .collecting _ _ g => some g

/-- The receiver with its gap timer, where it runs, set to expire at a moment. -/
def Receiver.gapUntil (moment : Nat) : Receiver → Receiver
  | .hunting => .hunting
  | .length _ => .length moment
  | .collecting toCome got _ => .collecting toCome got moment

/-- The gap timer expires (R156); it runs only inside a frame. -/
def State.takeTruncated (s : State) : State :=
  match s.port.receiver.gapEnds with
  | some t => (s.advanceTo t).frameError
  | none => s

/-- A start bit begins now (R156). A gap that was over before it makes the frame TRUNCATED; otherwise
the start bit drops the gap timer, which starts again at the character's end. -/
def State.startBit (s : State) : State :=
  let begun := s.withReceiver
    (s.port.receiver.gapUntil (s.clock + Config.characterTime + Config.gapTime))
  match s.port.receiver.gapEnds with
  | some g => if g < s.clock then s.takeTruncated else begun
  | none => begun

/-! ### The egress arbiter (R166) -/

/-- A local frame waits: a queued reply or a record, at an ASSIGNED controller (R160, R166). -/
def State.localWaits (s : State) : Bool :=
  s.assigned && (!s.commands.replies.isEmpty || !s.reports.queue.isEmpty)

/-- A frame's transmission begins now (R152, R166). -/
def State.transmit (f : Frame) (s : State) : State :=
  { s with port := { s.port with sending := some (f, s.clock + f.duration) } }

/-- Case 1 of a grant: the oldest through frame; the local-wait count rises where a local frame
waits. -/
def State.grantThrough (f : Frame) (rest : List Frame) (s : State) : State :=
  State.transmit f
    { s with port := { s.port with
        fifo := rest
        localWait := if s.localWaits then s.port.localWait + 1 else s.port.localWait } }

/-- The local-wait count 0 after a local grant. -/
def State.localServed (s : State) : State := { s with port := { s.port with localWait := 0 } }

/-- Case 2 of a grant: the oldest queued reply, whose slot becomes free. -/
def State.grantReply (f : Frame) (rest : List Frame) (s : State) : State :=
  State.transmit f
    { s with commands := { s.commands with replies := rest } }.localServed

/-- The EVENTS frame built now from the oldest records (R167, R189). -/
def State.eventsFrame (s : State) : Frame :=
  { kind := kindEvents, dest := Config.loopHead, src := s.port.station.getD 0
    body := eventsBody s.reports.lost (s.reports.queue.take Config.recordsPerFrame) }

/-- Case 3 of a grant: an EVENTS frame, whose records leave the Event Queue (R189). -/
def State.grantEvents (s : State) : State :=
  State.transmit s.eventsFrame
    (State.localServed
      { s with reports := { s.reports with
          queue := s.reports.queue.drop Config.recordsPerFrame } })

/-- The local side of a grant: replies before events (R166). -/
def State.grantLocal (s : State) : State :=
  match s.commands.replies with
  | f :: rest => s.grantReply f rest
  | [] => if s.reports.queue.isEmpty then s else s.grantEvents

/-- The state once the grant that is due, if any, is made (R166): while the transmitter is free and a
frame waits, the frame of the first case that applies is in transmission; otherwise nothing changes.
A grant is made before whatever event comes next, so every event but a hardware reset is taken on
the state once granted (R163, R169; assumption log 13). -/
def State.granted (s : State) : State :=
  match s.port.sending with
  | some _ => s
  | none =>
    match s.port.fifo with
    | f :: rest =>
      if s.port.localWait < Config.localWaitLimit ∨ ¬ s.localWaits then s.grantThrough f rest
      else s.grantLocal
    | [] => if s.localWaits then s.grantLocal else s

/-- A grant would send a frame (R166). -/
def State.grantPossible (s : State) : Bool :=
  s.port.sending.isNone && (!s.port.fifo.isEmpty || s.localWaits)

/-! ### LOOP OUT (R152, R171) -/

/-- The level LOOP OUT carries now: the level of the bit time that a frame in transmission has reached,
and the high level while nothing is sent. -/
def State.loopOut (s : State) : PinLevel :=
  match s.port.sending with
  | some (f, ends) =>
    if s.clock < ends then f.levels.getD (s.clock + f.duration - ends) .high else .high
  | none => .high

end Sys2Proof.Machine
end

