-- ==== Sys2Proof/Machine/Arrivals.lean ====
section
/-! DEFINITION. The meanings of the frame rows: each is the arrival of the frame its operands spell (R163). The
frame's own KIND, addresses and body decide what becomes of it, so a row's stray forms (a foreign
source, a wrong body length, a number of this station as source) are handled as R162 says. A grant
that is due is made before the arrival (R163, R169; assumption log 13). -/

namespace Sys2Proof.Machine

/-- FORWARDED_FRAME (R162, R164, R165). -/
def execForwardedFrame (kind dest src : Byte) (body : List Byte) (s : State) :
    Host.Outcome State Fault Refusal :=
  .next (s.granted.arrive ⟨kind, dest, src, body⟩)

/-- CYCLE_MARKER (R116, R123). -/
def execCycleMarker (dest src : Byte) (body : List Byte) (s : State) :
    Host.Outcome State Fault Refusal :=
  .next (s.granted.arrive ⟨kindCycle, dest, src, body⟩)

/-- POINTS_FRAME (R24). -/
def execPointsFrame (dest src : Byte) (body : List Byte) (s : State) :
    Host.Outcome State Fault Refusal :=
  .next (s.granted.arrive ⟨kindPoints, dest, src, body⟩)

/-- OUTSTATION_FRAME (R49). -/
def execOutstationFrame (dest src : Byte) (body : List Byte) (s : State) :
    Host.Outcome State Fault Refusal :=
  .next (s.granted.arrive ⟨kindOutstation, dest, src, body⟩)

/-- COMMAND_WITHOUT_CODE (R172). -/
def execCommandWithoutCode (dest src : Byte) (body : List Byte) (s : State) :
    Host.Outcome State Fault Refusal :=
  .next (s.granted.arrive ⟨kindCommand, dest, src, body⟩)

/-- The COMMAND frame of a command code with its head and parameters (R172, R200). -/
def commandFrame (h : CommandHead) (code : Byte) (params : List Byte) : Frame :=
  { kind := kindCommand, dest := h.dest, src := h.src, body := h.tag :: code :: params }

/-- The arrival of a command's frame. -/
def State.arriveCommand (h : CommandHead) (code : Byte) (params : List Byte) (s : State) :
    Host.Outcome State Fault Refusal :=
  .next (s.granted.arrive (commandFrame h code params))

/-- UNKNOWN_COMMAND (R175): an addressed command whose code names no command. -/
def execUnknownCommand (h : CommandHead) (code : Byte) (params : List Byte) (s : State) :
    Host.Outcome State Fault Refusal :=
  s.arriveCommand h code params

/-- The frame whose arrival a frame row is (R153, R200); none for the rows that are no frame. -/
def frameOf : Instr → Option Frame
  | .forwardedFrame kind dest src body => some ⟨kind, dest, src, body⟩
  | .cycleMarker dest src body => some ⟨kindCycle, dest, src, body⟩
  | .pointsFrame dest src body => some ⟨kindPoints, dest, src, body⟩
  | .outstationFrame dest src body => some ⟨kindOutstation, dest, src, body⟩
  | .commandWithoutCode dest src body => some ⟨kindCommand, dest, src, body⟩
  | .unknownCommand h code params => some (commandFrame h code params)
  | .status h params => some (commandFrame h 0x01 params)
  | .setStation h params => some (commandFrame h 0x02 params)
  | .restart h params => some (commandFrame h 0x03 params)
  | .setTiming h params => some (commandFrame h 0x10 params)
  | .resync h params => some (commandFrame h 0x11 params)
  | .setCadenceRun h params => some (commandFrame h 0x12 params)
  | .setCadenceStop h params => some (commandFrame h 0x12 params)
  | .pointLoad h params => some (commandFrame h 0x20 params)
  | .pointDrop h params => some (commandFrame h 0x21 params)
  | .pointRead h params => some (commandFrame h 0x22 params)
  | .tableClear h params => some (commandFrame h 0x23 params)
  | .tableScan h params => some (commandFrame h 0x24 params)
  | .groupSet h params => some (commandFrame h 0x25 params)
  | .outstationRead h params => some (commandFrame h 0x30 params)
  | .setStaleLimit h params => some (commandFrame h 0x31 params)
  | .ackPoint h params => some (commandFrame h 0x40 params)
  | .ackGroup h params => some (commandFrame h 0x41 params)
  | .ackAll h params => some (commandFrame h 0x42 params)
  | .silence h params => some (commandFrame h 0x43 params)
  | .hornSet h params => some (commandFrame h 0x44 params)
  | .lampOverride h params => some (commandFrame h 0x50 params)
  | .lampRead h params => some (commandFrame h 0x51 params)
  | .holdOn h params => some (commandFrame h 0x52 params)
  | .holdOff h params => some (commandFrame h 0x52 params)
  | .prove h params => some (commandFrame h 0x53 params)
  | .clearLampFaults h params => some (commandFrame h 0x54 params)
  | .lineSet h params => some (commandFrame h 0x60 params)
  | .lineWrite h params => some (commandFrame h 0x61 params)
  | .lineRead h params => some (commandFrame h 0x62 params)
  | .conditionClear h params => some (commandFrame h 0x70 params)
  | .conditionRaise h params => some (commandFrame h 0x71 params)
  | .reportMask h params => some (commandFrame h 0x72 params)
  | .hardwareReset _ _ => none
  | .startedRecordQueued => none
  | .badLength => none
  | .truncated => none
  | .badCrc => none
  | .lateBoundExpiry => none
  | .holdExpiry => none
  | .dwellEnd _ => none
  | .senseTimerExpiry _ => none
  | .phaseEnd _ _ => none
  | .pinChange _ _ => none
  | .debounceExpiry _ => none
  | .grant => none
  | .transmissionEnd => none
  | .byteReceived _ => none

end Sys2Proof.Machine
end

