-- ==== Sys2Proof/Machine/CommandRows.lean ====
section
/-! DEFINITION. The meanings of the command rows: each is the arrival of the COMMAND frame with the row's code
(R200, 11.4), its head and its parameter bytes. The Loop Port and the Command Unit take it from
there (R162, R172 to R177), and the effect is the command's own definition in
Machine/CommandUnit.lean. -/

namespace Sys2Proof.Machine

/-- STATUS (R180). -/
def execStatus (h : CommandHead) (params : List Byte) (s : State) :
    Host.Outcome State Fault Refusal :=
  s.arriveCommand h 0x01 params

/-- SET_STATION (R161). -/
def execSetStation (h : CommandHead) (params : List Byte) (s : State) :
    Host.Outcome State Fault Refusal :=
  s.arriveCommand h 0x02 params

/-- RESTART (R181). -/
def execRestart (h : CommandHead) (params : List Byte) (s : State) :
    Host.Outcome State Fault Refusal :=
  s.arriveCommand h 0x03 params

/-- SET_TIMING (R124). -/
def execSetTiming (h : CommandHead) (params : List Byte) (s : State) :
    Host.Outcome State Fault Refusal :=
  s.arriveCommand h 0x10 params

/-- RESYNC (R125). -/
def execResync (h : CommandHead) (params : List Byte) (s : State) :
    Host.Outcome State Fault Refusal :=
  s.arriveCommand h 0x11 params

/-- SET_CADENCE_RUN (R130: SET CADENCE whose run request is RUN, by its last parameter byte). -/
def execSetCadenceRun (h : CommandHead) (params : List Byte) (s : State) :
    Host.Outcome State Fault Refusal :=
  s.arriveCommand h 0x12 params

/-- SET_CADENCE_STOP (R130: SET CADENCE whose run request is STOP, by its last parameter byte). -/
def execSetCadenceStop (h : CommandHead) (params : List Byte) (s : State) :
    Host.Outcome State Fault Refusal :=
  s.arriveCommand h 0x12 params

/-- POINT_LOAD (R6). -/
def execPointLoad (h : CommandHead) (params : List Byte) (s : State) :
    Host.Outcome State Fault Refusal :=
  s.arriveCommand h 0x20 params

/-- POINT_DROP (R16). -/
def execPointDrop (h : CommandHead) (params : List Byte) (s : State) :
    Host.Outcome State Fault Refusal :=
  s.arriveCommand h 0x21 params

/-- POINT_READ (R18). -/
def execPointRead (h : CommandHead) (params : List Byte) (s : State) :
    Host.Outcome State Fault Refusal :=
  s.arriveCommand h 0x22 params

/-- TABLE_CLEAR (R17). -/
def execTableClear (h : CommandHead) (params : List Byte) (s : State) :
    Host.Outcome State Fault Refusal :=
  s.arriveCommand h 0x23 params

/-- TABLE_SCAN (R19). -/
def execTableScan (h : CommandHead) (params : List Byte) (s : State) :
    Host.Outcome State Fault Refusal :=
  s.arriveCommand h 0x24 params

/-- GROUP_SET (R22). -/
def execGroupSet (h : CommandHead) (params : List Byte) (s : State) :
    Host.Outcome State Fault Refusal :=
  s.arriveCommand h 0x25 params

/-- OUTSTATION_READ (R61). -/
def execOutstationRead (h : CommandHead) (params : List Byte) (s : State) :
    Host.Outcome State Fault Refusal :=
  s.arriveCommand h 0x30 params

/-- SET_STALE_LIMIT (R54). -/
def execSetStaleLimit (h : CommandHead) (params : List Byte) (s : State) :
    Host.Outcome State Fault Refusal :=
  s.arriveCommand h 0x31 params

/-- ACK_POINT (R76). -/
def execAckPoint (h : CommandHead) (params : List Byte) (s : State) :
    Host.Outcome State Fault Refusal :=
  s.arriveCommand h 0x40 params

/-- ACK_GROUP (R79). -/
def execAckGroup (h : CommandHead) (params : List Byte) (s : State) :
    Host.Outcome State Fault Refusal :=
  s.arriveCommand h 0x41 params

/-- ACK_ALL (R80). -/
def execAckAll (h : CommandHead) (params : List Byte) (s : State) :
    Host.Outcome State Fault Refusal :=
  s.arriveCommand h 0x42 params

/-- SILENCE (R72). -/
def execSilence (h : CommandHead) (params : List Byte) (s : State) :
    Host.Outcome State Fault Refusal :=
  s.arriveCommand h 0x43 params

/-- HORN_SET (R73). -/
def execHornSet (h : CommandHead) (params : List Byte) (s : State) :
    Host.Outcome State Fault Refusal :=
  s.arriveCommand h 0x44 params

/-- LAMP_OVERRIDE (R94). -/
def execLampOverride (h : CommandHead) (params : List Byte) (s : State) :
    Host.Outcome State Fault Refusal :=
  s.arriveCommand h 0x50 params

/-- LAMP_READ (R111). -/
def execLampRead (h : CommandHead) (params : List Byte) (s : State) :
    Host.Outcome State Fault Refusal :=
  s.arriveCommand h 0x51 params

/-- HOLD_ON (R96: HOLD whose mode is ON, by its first parameter byte). -/
def execHoldOn (h : CommandHead) (params : List Byte) (s : State) :
    Host.Outcome State Fault Refusal :=
  s.arriveCommand h 0x52 params

/-- HOLD_OFF (R98: HOLD whose mode is OFF, by its first parameter byte). -/
def execHoldOff (h : CommandHead) (params : List Byte) (s : State) :
    Host.Outcome State Fault Refusal :=
  s.arriveCommand h 0x52 params

/-- PROVE (R105). -/
def execProve (h : CommandHead) (params : List Byte) (s : State) :
    Host.Outcome State Fault Refusal :=
  s.arriveCommand h 0x53 params

/-- CLEAR_LAMP_FAULTS (R104). -/
def execClearLampFaults (h : CommandHead) (params : List Byte) (s : State) :
    Host.Outcome State Fault Refusal :=
  s.arriveCommand h 0x54 params

/-- LINE_SET (R147). -/
def execLineSet (h : CommandHead) (params : List Byte) (s : State) :
    Host.Outcome State Fault Refusal :=
  s.arriveCommand h 0x60 params

/-- LINE_WRITE (R146). -/
def execLineWrite (h : CommandHead) (params : List Byte) (s : State) :
    Host.Outcome State Fault Refusal :=
  s.arriveCommand h 0x61 params

/-- LINE_READ (R149). -/
def execLineRead (h : CommandHead) (params : List Byte) (s : State) :
    Host.Outcome State Fault Refusal :=
  s.arriveCommand h 0x62 params

/-- CONDITION_CLEAR (R194). -/
def execConditionClear (h : CommandHead) (params : List Byte) (s : State) :
    Host.Outcome State Fault Refusal :=
  s.arriveCommand h 0x70 params

/-- CONDITION_RAISE (R195). -/
def execConditionRaise (h : CommandHead) (params : List Byte) (s : State) :
    Host.Outcome State Fault Refusal :=
  s.arriveCommand h 0x71 params

/-- REPORT_MASK (R196). -/
def execReportMask (h : CommandHead) (params : List Byte) (s : State) :
    Host.Outcome State Fault Refusal :=
  s.arriveCommand h 0x72 params

end Sys2Proof.Machine
end

