-- ==== Sys2Proof/Machine/Timers.lean ====
section
/-! DEFINITION. The meanings of the rows that are no frames: hardware reset and start-up (R184), timer expiries,
pins, and the line's own events. A timer's row is the expiry of that timer: the clock stands at the
timer's moment when it is taken, and where the timer does not run there is no expiry and nothing
changes (assumption log 5). Each is taken on the state once granted (assumption log 13). -/

namespace Sys2Proof.Machine

/-! ### Hardware reset and start-up (R171, R184) -/

/-- The cause a hardware reset carries (R184). -/
def causeOfReset : ResetSource → StartCause
  | .detector => .powerUp
  | .resetPin _ => .resetPin
  | .resetPinAtPowerUp => .powerUp

/-- Whether an input gives a hardware reset: a low level at the RESET pin must be held long enough
(R171). -/
def givesReset : ResetSource → Bool
  | .resetPin lowFor => decide (Config.resetPulse ≤ lowFor)
  | _ => true

/-- Every block at its hardware reset values, the straps read (R184). The levels outside the panel pins
and the queue of waiting commands are not the part's to reset. -/
def State.hardwareReset (source : ResetSource) (straps : BitVec 6) (s : State) : State :=
  let pins : Vector PinLevel 8 := Table.mapIdx (fun _ l => l.pin) s.panel.lines
  let t := State.afterReset straps (causeOfReset source) pins s.pending
  { t with lamps := { t.lamps with sampleNo := s.lamps.sampleNo } }

/-- HARDWARE_RESET, from its start to its end, at the rising edge of RESET or once the supply is stable
(R171): the state is that of its end, at which the straps are sampled. A low level too short to give
a reset gives none. -/
def execHardwareReset (source : ResetSource) (straps : BitVec 6) (s : State) :
    Host.Outcome State Fault Refusal :=
  if givesReset source then .next (s.hardwareReset source straps) else .next s.granted

/-- The STARTED record of start-up is queued, 40 µs after the reset (R184). -/
def State.takeStarted (s : State) : State :=
  match s.startDue with
  | some cause =>
    State.record (.started cause (s.port.station.getD 0))
      { s.advanceTo Config.startedDelay with startDue := none }
  | none => s

/-- STARTED_RECORD_QUEUED (R184). -/
def execStartedRecordQueued (s : State) : Host.Outcome State Fault Refusal :=
  .next s.granted.takeStarted

/-! ### The receiver's errors -/

/-- BAD_LENGTH (R155, R158). -/
def execBadLength (s : State) : Host.Outcome State Fault Refusal := .next s.granted.frameError

/-- TRUNCATED (R156, R158). -/
def execTruncated (s : State) : Host.Outcome State Fault Refusal := .next s.granted.takeTruncated

/-- BAD_CRC (R157, R158). -/
def execBadCrc (s : State) : Host.Outcome State Fault Refusal := .next s.granted.frameError

/-! ### Timers -/

/-- The late bound's expiry (R120, R122); in NO_SYNC there is no late bound (R115). -/
def State.takeLateBound (s : State) : State :=
  match s.supervisor.state, s.supervisor.reference with
  | .noSync, _ => s
  | _, none => s
  | _, some r => (s.advanceTo (1000 * s.supervisor.lateBound r)).lateBoundExpires r

/-- LATE_BOUND_EXPIRY (R120, R122). -/
def execLateBoundExpiry (s : State) : Host.Outcome State Fault Refusal := .next s.granted.takeLateBound

/-- The expiry of HOLD (R98). -/
def State.takeHoldExpiry (s : State) : State :=
  match s.lamps.holdEnds with
  | some t => (s.advanceTo (1000 * t)).endHoldWith .expiry
  | none => s

/-- HOLD_EXPIRY (R98). -/
def execHoldExpiry (s : State) : Host.Outcome State Fault Refusal := .next s.granted.takeHoldExpiry

/-- The ms at which a RUNNING sweep's dwell ends. -/
def SweepRun.ends : SweepRun → Option Nat
  | .running t => some t
  | .paused => none

/-- The end of a dwell (R107, R109); a PAUSED sweep has no dwell (R108). -/
def State.takeDwellEnd (currents : BitVec 256) (s : State) : State :=
  match s.lamps.sweep with
  | some w =>
    match w.run.ends with
    | some t => (s.advanceTo (1000 * t)).endDwell w currents
    | none => s
  | none => s

/-- DWELL_END (R107, R109). -/
def execDwellEnd (currents : BitVec 256) (s : State) : Host.Outcome State Fault Refusal :=
  .next (s.granted.takeDwellEnd currents)

/-- The expiry of the sense timer (R100). -/
def State.takeSenseTimer (currents : BitVec 256) (s : State) : State :=
  (s.advanceTo (1000 * s.lamps.senseDue)).senseTimer currents

/-- SENSE_TIMER_EXPIRY (R100). -/
def execSenseTimerExpiry (currents : BitVec 256) (s : State) : Host.Outcome State Fault Refusal :=
  .next (s.granted.takeSenseTimer currents)

/-- The end of a generator's phase (R128, R101); a STOPPED generator has no phase. -/
def State.takePhaseEnd (c : Cadence) (currents : BitVec 256) (s : State) : State :=
  match (s.generators.get c).phase with
  | some (ended, t) => (s.advanceTo (1000 * t)).endPhase c ended currents
  | none => s

/-- PHASE_END (R128, R101). -/
def execPhaseEnd (c : Cadence) (currents : BitVec 256) (s : State) :
    Host.Outcome State Fault Refusal :=
  .next (s.granted.takePhaseEnd c currents)

/-! ### Pins -/

/-- PIN_CHANGE (R139). -/
def execPinChange (i : Fin 8) (level : PinLevel) (s : State) : Host.Outcome State Fault Refusal :=
  .next (s.granted.modifyLine i (·.pinBecomes level s.granted.now))

/-- The expiry of a line's debounce timer (R139, R140). -/
def State.takeDebounce (i : Fin 8) (s : State) : State :=
  match s.debounceDue i with
  | some t => (s.advanceTo (1000 * t)).debounceExpires i
  | none => s

/-- DEBOUNCE_EXPIRY (R139, R140). -/
def execDebounceExpiry (i : Fin 8) (s : State) : Host.Outcome State Fault Refusal :=
  .next (s.granted.takeDebounce i)

/-! ### The egress arbiter -/

/-- GRANT (R166). -/
def execGrant (s : State) : Host.Outcome State Fault Refusal := .next s.granted

/-- The last stop bit of the frame in transmission ends and the transmitter becomes free (R166). -/
def State.takeTransmissionEnd (s : State) : State :=
  match s.port.sending with
  | some (_, t) => { s.advanceTo t with port := { s.port with sending := none } }
  | none => s

/-- TRANSMISSION_END (R166). -/
def execTransmissionEnd (s : State) : Host.Outcome State Fault Refusal :=
  .next s.granted.takeTransmissionEnd

end Sys2Proof.Machine
end

