-- ==== Sys2Proof/Machine/OwnEvents.lean ====
section
/-! DEFINITION. The controller's own events: what its timers and its arbiter do with no command, by its own clock
(R114). `State.ownEvent` names the one that is due; where none is, time passes to the next moment.
They are taken by a step with no command waiting (assumption log 3), and within the time of a
character on LOOP IN (assumption log 4). -/

namespace Sys2Proof.Machine

/-- An event of the controller's own timers or of its arbiter. Each is a row of the table. -/
inductive OwnEvent where
  | grant | started | gap | sent | lateBound | dwell | hold
  | phase (c : Cadence)
  | debounce (i : Fin 8)
  | sense
  deriving DecidableEq, Repr

/-- The row of the table that an own event is, with the lamp currents met by a sensing. -/
def OwnEvent.row (currents : BitVec 256) : OwnEvent → Instr
  | .grant => .grant
  | .started => .startedRecordQueued
  | .gap => .truncated
  | .sent => .transmissionEnd
  | .lateBound => .lateBoundExpiry
  | .dwell => .dwellEnd currents
  | .hold => .holdExpiry
  | .phase c => .phaseEnd c currents
  | .debounce i => .debounceExpiry i
  | .sense => .senseTimerExpiry currents

/-- What an own event does, with the lamp currents met by a sensing: what its row does. -/
def OwnEvent.take (currents : BitVec 256) (e : OwnEvent) (s : State) : State :=
  match e with
  | .grant => s.granted
  | .started => s.granted.takeStarted
  | .gap => s.granted.takeTruncated
  | .sent => s.granted.takeTransmissionEnd
  | .lateBound => s.granted.takeLateBound
  | .dwell => s.granted.takeDwellEnd currents
  | .hold => s.granted.takeHoldExpiry
  | .phase c => s.granted.takePhaseEnd c currents
  | .debounce i => s.granted.takeDebounce i
  | .sense => s.granted.takeSenseTimer currents

/-! ### Which own event is due -/

/-- A ms moment has come. -/
def State.msReached (s : State) : Option Nat → Bool
  | some t => decide (t ≤ s.now)
  | none => false

/-- A µs moment has come. -/
def State.usReached (s : State) : Option Nat → Bool
  | some t => decide (t ≤ s.clock)
  | none => false

/-- The ms of the late bound, where its timer runs (R115). -/
def State.lateBoundDue (s : State) : Option Nat :=
  if s.supervisor.state = .noSync then none
  else s.supervisor.reference.map s.supervisor.lateBound

/-- The ms at which a prove dwell ends, where one runs. -/
def State.dwellDue (s : State) : Option Nat := s.lamps.sweep.bind fun w => w.run.ends

/-- The ms at which a generator's phase ends, where it has one. -/
def State.phaseDue (s : State) (c : Cadence) : Option Nat :=
  (s.generators.get c).phase.map (·.2)

/-- The µs at which the frame in transmission ends. -/
def State.sendingEnds (s : State) : Option Nat := s.port.sending.map (·.2)

/-- The µs at which the STARTED record of start-up is queued. -/
def State.startedDue (s : State) : Option Nat := s.startDue.map fun _ => Config.startedDelay

/-- The generators whose phase has run out at this moment. -/
def State.phasesOver (s : State) : List Cadence :=
  [Cadence.alert, .first, .ret, .motion, .stale].filter fun c => s.msReached (s.phaseDue c)

/-- The lines whose debounce timer has run out at this moment. -/
def State.linesOver (s : State) : List (Fin 8) :=
  allLines.filter fun i => s.msReached (s.debounceDue i)

/-- The event of the controller's own that is due at this moment, if any. A grant comes before every
other event (R166); the order among the others at one moment is the model's (assumption log 6). -/
def State.ownEvent (s : State) : Option OwnEvent :=
  if s.grantPossible then some .grant
  else if s.usReached s.startedDue then some .started
  else if s.usReached s.port.receiver.gapEnds then some .gap
  else if s.usReached s.sendingEnds then some .sent
  else if s.msReached s.lateBoundDue then some .lateBound
  else if s.msReached s.dwellDue then some .dwell
  else if s.msReached s.lamps.holdEnds then some .hold
  else match s.phasesOver, s.linesOver with
    | c :: _, _ => some (.phase c)
    | [], i :: _ => some (.debounce i)
    | [], [] => if s.msReached (some s.lamps.senseDue) then some .sense else none

/-! ### Own events taken, and time passing -/

/-- One event of the controller's own more has drawn on the free lamp currents. -/
def State.drawCurrents (s : State) : State :=
  { s with lamps := { s.lamps with sampleNo := s.lamps.sampleNo + 1 } }

/-- The currents that an own event meets now: a free value (assumption log 7). -/
def State.freeCurrents (s : State) : BitVec 256 := Config.lampCurrents s.lamps.sampleNo

/-- An own event happens (assumption log 7 for the currents). -/
def State.happen (e : OwnEvent) (s : State) : State := e.take s.freeCurrents s.drawCurrents

/-- The earlier of a moment and one that may be absent. -/
def earlier (t : Nat) : Option Nat → Nat
  | some u => min t u
  | none => t

/-- The next moment at which anything of the controller's own can be due: the next whole ms, or a
timer of the loop before it. -/
def State.nextMoment (s : State) : Nat :=
  earlier (earlier (earlier ((s.now + 1) * 1000) s.startedDue) s.port.receiver.gapEnds) s.sendingEnds

/-- Time passes to the next moment. -/
def State.passTime (s : State) : State := s.advanceTo s.nextMoment

/-- Time passes to a moment, each own event that is due before it being taken when it is due, up to a
number of events and moments. -/
def State.passUntil (moment : Nat) : Nat → State → State
  | 0, s => s.advanceTo moment
  | n + 1, s =>
    match s.ownEvent with
    | some e => (s.happen e).passUntil moment n
    | none => if s.nextMoment < moment then s.passTime.passUntil moment n else s.advanceTo moment

/-! ### A character on LOOP IN (R152) -/

/-- A character whose start bit begins now: the start bit, the ten bit times with the own events that
are due in them, then the byte taken at the end of the stop bit (R152, R155, R156). DESIGN CHOICE: an
own event that comes due at the very moment at which the character ends is taken after the byte, since
the manual fixes no order between the two (R169; assumption log 6). -/
def State.takeCharacter (c : Character) (s : State) : State :=
  let ended :=
    s.startBit.granted.passUntil (s.clock + Config.characterTime) Config.eventsPerCharacter
  ended.granted.receiveByte (characterByte c)

/-- BYTE_RECEIVED, from the start bit of the byte's character on (R152, R155, R156). -/
def execByteReceived (c : Character) (s : State) : Host.Outcome State Fault Refusal :=
  .next (s.granted.takeCharacter c)

end Sys2Proof.Machine
end

