-- ==== Sys2Proof/Machine/Dispatch.lean ====
section
/-! DEFINITION. The meaning of every command, one arm per constructor of `Instr` in the table's order. -/

namespace Sys2Proof.Machine

def exec (i : Instr) (s : State) : Host.Outcome State Fault Refusal :=
  match i with
  | .hardwareReset source straps => Sys2Proof.Machine.execHardwareReset source straps s
  | .startedRecordQueued => Sys2Proof.Machine.execStartedRecordQueued s
  | .badLength => Sys2Proof.Machine.execBadLength s
  | .truncated => Sys2Proof.Machine.execTruncated s
  | .badCrc => Sys2Proof.Machine.execBadCrc s
  | .forwardedFrame kind dest src body => Sys2Proof.Machine.execForwardedFrame kind dest src body s
  | .cycleMarker dest src body => Sys2Proof.Machine.execCycleMarker dest src body s
  | .lateBoundExpiry => Sys2Proof.Machine.execLateBoundExpiry s
  | .pointsFrame dest src body => Sys2Proof.Machine.execPointsFrame dest src body s
  | .outstationFrame dest src body => Sys2Proof.Machine.execOutstationFrame dest src body s
  | .commandWithoutCode dest src body => Sys2Proof.Machine.execCommandWithoutCode dest src body s
  | .unknownCommand head code params => Sys2Proof.Machine.execUnknownCommand head code params s
  | .status head params => Sys2Proof.Machine.execStatus head params s
  | .setStation head params => Sys2Proof.Machine.execSetStation head params s
  | .restart head params => Sys2Proof.Machine.execRestart head params s
  | .setTiming head params => Sys2Proof.Machine.execSetTiming head params s
  | .resync head params => Sys2Proof.Machine.execResync head params s
  | .setCadenceRun head params => Sys2Proof.Machine.execSetCadenceRun head params s
  | .setCadenceStop head params => Sys2Proof.Machine.execSetCadenceStop head params s
  | .pointLoad head params => Sys2Proof.Machine.execPointLoad head params s
  | .pointDrop head params => Sys2Proof.Machine.execPointDrop head params s
  | .pointRead head params => Sys2Proof.Machine.execPointRead head params s
  | .tableClear head params => Sys2Proof.Machine.execTableClear head params s
  | .tableScan head params => Sys2Proof.Machine.execTableScan head params s
  | .groupSet head params => Sys2Proof.Machine.execGroupSet head params s
  | .outstationRead head params => Sys2Proof.Machine.execOutstationRead head params s
  | .setStaleLimit head params => Sys2Proof.Machine.execSetStaleLimit head params s
  | .ackPoint head params => Sys2Proof.Machine.execAckPoint head params s
  | .ackGroup head params => Sys2Proof.Machine.execAckGroup head params s
  | .ackAll head params => Sys2Proof.Machine.execAckAll head params s
  | .silence head params => Sys2Proof.Machine.execSilence head params s
  | .hornSet head params => Sys2Proof.Machine.execHornSet head params s
  | .lampOverride head params => Sys2Proof.Machine.execLampOverride head params s
  | .lampRead head params => Sys2Proof.Machine.execLampRead head params s
  | .holdOn head params => Sys2Proof.Machine.execHoldOn head params s
  | .holdOff head params => Sys2Proof.Machine.execHoldOff head params s
  | .holdExpiry => Sys2Proof.Machine.execHoldExpiry s
  | .prove head params => Sys2Proof.Machine.execProve head params s
  | .dwellEnd currents => Sys2Proof.Machine.execDwellEnd currents s
  | .clearLampFaults head params => Sys2Proof.Machine.execClearLampFaults head params s
  | .senseTimerExpiry currents => Sys2Proof.Machine.execSenseTimerExpiry currents s
  | .phaseEnd generator currents => Sys2Proof.Machine.execPhaseEnd generator currents s
  | .lineSet head params => Sys2Proof.Machine.execLineSet head params s
  | .lineWrite head params => Sys2Proof.Machine.execLineWrite head params s
  | .lineRead head params => Sys2Proof.Machine.execLineRead head params s
  | .pinChange line level => Sys2Proof.Machine.execPinChange line level s
  | .debounceExpiry line => Sys2Proof.Machine.execDebounceExpiry line s
  | .conditionClear head params => Sys2Proof.Machine.execConditionClear head params s
  | .conditionRaise head params => Sys2Proof.Machine.execConditionRaise head params s
  | .reportMask head params => Sys2Proof.Machine.execReportMask head params s
  | .grant => Sys2Proof.Machine.execGrant s
  | .transmissionEnd => Sys2Proof.Machine.execTransmissionEnd s
  | .byteReceived character => Sys2Proof.Machine.execByteReceived character s

end Sys2Proof.Machine
end

