-- ==== Sys2Proof/Machine/Step.lean ====
section
/-! DEFINITION. One step of the block: the command at the front of the queue, or, with no command waiting, the
controller's own time. -/

namespace Sys2Proof.Machine

/-- The queue of waiting commands set. -/
def State.withPending (s : State) (queue : List Instr) : State := { s with pending := queue }

/-- A step with no command waiting (assumption log 3): the controller's own event that is due is
taken as the row of the table it is, with the free lamp currents (assumption log 7); where none is
due, time passes. -/
def idleStep (s : State) : Host.Outcome State Fault Refusal :=
  match s.ownEvent with
  | some e => exec (e.row s.freeCurrents) s.drawCurrents
  | none => .next s.passTime

/-- One step: the command at the front of the queue is taken, with the queue's rest. -/
def step (s : State) : Host.Outcome State Fault Refusal :=
  match s.pending with
  | i :: rest => exec i (s.withPending rest)
  | [] => idleStep s

/-- The state with the command that a word spells at the front of its queue; unchanged where the word
spells none (assumption log 17). -/
def State.withFetchWord (s : State) (nbits w : Nat) : State :=
  match decodeTableWord nbits w with
  | some i => s.withPending (i :: s.pending)
  | none => s

end Sys2Proof.Machine
end

