-- ==== Sys2Proof/WellFormed.lean ====
section
/-! DEFINITION. Which operands a row of the table can have: the bodies a frame can carry (R153), and the kinds,
sources, codes and request bytes that make a frame one of its row. `exec` does not ask for it: a
frame outside its row is still judged by its own bytes. -/

namespace Sys2Proof

open Sys2Proof.Machine

/-- A body a frame can carry: LENGTH is 3..120, so 0..117 bytes (R153). -/
def bodyFits (body : List Byte) : Bool := decide (body.length ≤ 117)

/-- Parameters a COMMAND frame can carry behind tag and code. -/
def paramsFit (params : List Byte) : Bool := decide (params.length ≤ 115)

/-- A frame of FORWARDED_FRAME: no frame from the loop head that a block acts on (R162; rows 2, 4 and 5
act, and a COMMAND from the loop head to another station is a forwarded one). -/
def forwardedForm (kind dest src : Byte) : Bool :=
  !((kind == 1 || kind == 2 || kind == 3) && src == 63) && !(kind == 4 && src == 63 && dest == 0)

/-- Whether the operands of a command are ones its row can have. -/
def WellFormed : Instr → Bool
  | .hardwareReset _ _ => true
  | .startedRecordQueued => true
  | .badLength => true
  | .truncated => true
  | .badCrc => true
  | .forwardedFrame kind dest src body => bodyFits body && forwardedForm kind dest src
  | .cycleMarker _ src body => bodyFits body && src == 63
  | .lateBoundExpiry => true
  | .pointsFrame _ src body => bodyFits body && src == 63
  | .outstationFrame _ src body => bodyFits body && src == 63
  | .commandWithoutCode _ _ body => decide (body.length < 2)
  | .unknownCommand _ code params => paramsFit params && (commandRule code).isNone
  | .status _ params => paramsFit params
  | .setStation _ params => paramsFit params
  | .restart _ params => paramsFit params
  | .setTiming _ params => paramsFit params
  | .resync _ params => paramsFit params
  | .setCadenceRun _ params => paramsFit params && params[3]? != some 2
  | .setCadenceStop _ params => paramsFit params && params[3]? == some 2
  | .pointLoad _ params => paramsFit params
  | .pointDrop _ params => paramsFit params
  | .pointRead _ params => paramsFit params
  | .tableClear _ params => paramsFit params
  | .tableScan _ params => paramsFit params
  | .groupSet _ params => paramsFit params
  | .outstationRead _ params => paramsFit params
  | .setStaleLimit _ params => paramsFit params
  | .ackPoint _ params => paramsFit params
  | .ackGroup _ params => paramsFit params
  | .ackAll _ params => paramsFit params
  | .silence _ params => paramsFit params
  | .hornSet _ params => paramsFit params
  | .lampOverride _ params => paramsFit params
  | .lampRead _ params => paramsFit params
  | .holdOn _ params => paramsFit params && params[0]? != some 0
  | .holdOff _ params => paramsFit params && params[0]? == some 0
  | .holdExpiry => true
  | .prove _ params => paramsFit params
  | .dwellEnd _ => true
  | .clearLampFaults _ params => paramsFit params
  | .senseTimerExpiry _ => true
  | .phaseEnd _ _ => true
  | .lineSet _ params => paramsFit params
  | .lineWrite _ params => paramsFit params
  | .lineRead _ params => paramsFit params
  | .pinChange _ _ => true
  | .debounceExpiry _ => true
  | .conditionClear _ params => paramsFit params
  | .conditionRaise _ params => paramsFit params
  | .reportMask _ params => paramsFit params
  | .grant => true
  | .transmissionEnd => true
  | .byteReceived _ => true

end Sys2Proof
end

