-- ==== Sys2Proof/Safety.lean ====
section
/-! DEFINITION. What the statements about the machine are written in: the ways a command reaches it, what a reply
and a forwarding leave, the tables of the manual that the statements quote, and the laws that every
state of the machine keeps. -/

namespace Sys2Proof.Machine

/-! ### Runs -/

/-- Commands taken one after another, with no time of the controller's own between them. -/
def execAll : List Instr → State → Host.Outcome State Fault Refusal
  | [], s => .next s
  | i :: rest, s =>
    match exec i s with
    | .next t => execAll rest t
    | .fault f => .fault f
    | .refused r => .refused r

/-! ### Event records and condition latches, in the words of R188 and R192 -/

/-- A record made: queued at the young end while the Event Queue holds fewer than 48; otherwise discarded,
with the lost count raised, unless it is already 255, and EVENT_LOSS, condition 3, latched (R188). -/
def Reports.joined (stamp : Stamp) (data : RecordData) (r : Reports) : Reports :=
  if r.queue.length < 48 then { r with queue := r.queue ++ [⟨data, stamp⟩] }
  else { r with
    lost := if r.lost < 255 then r.lost + 1 else r.lost
    latched := r.latched ||| 0x08 }

/-- A cause occurs, row by row of R192: a latched condition is left; a clear one becomes latched, with a
CONDITION record where it is in the report mask and is not EVENT_LOSS. -/
def Reports.caused (stamp : Stamp) (c : Condition) (r : Reports) : Reports :=
  if r.latched.getLsbD c.code = true then r
  else
    let latched : Reports := { r with latched := r.latched ||| (1#8 <<< c.code) }
    if r.mask.getLsbD c.code = true ∧ c ≠ .eventLoss then latched.joined stamp (.condition c)
    else latched

/-- A record as its ten bytes at a place in a body: kind, stamp and data (R200, 11.5). -/
def RecordAt (b : List Byte) (i : Nat) (r : EventRecord) : Prop :=
  field16 b (i + 1) = r.stamp.cycle % 65536 ∧ field16 b (i + 3) = r.stamp.offset % 65536 ∧
  match r.data with
  | .alarm k t c g => field8 b i = 1 ∧ field16 b (i + 5) = k.outstation % 65536 ∧
      field8 b (i + 7) = k.index % 256 ∧ upperNibble b (i + 8) = t.code ∧
      lowerNibble b (i + 8) = causeCode c ∧ b[i + 9]? = some g
  | .key line fn group => field8 b i = 2 ∧ field8 b (i + 5) = line % 256 ∧
      field8 b (i + 6) = fn.code ∧ field8 b (i + 7) = group % 256 ∧ field16 b (i + 8) = 0
  | .lampFault ch kind => field8 b i = 3 ∧ field8 b (i + 5) = ch % 256 ∧
      field8 b (i + 6) = kind.code ∧ field8 b (i + 7) = 0 ∧ field16 b (i + 8) = 0
  | .condition c => field8 b i = 4 ∧ field8 b (i + 5) = c.code ∧ field16 b (i + 6) = 0 ∧
      field16 b (i + 8) = 0
  | .started cause station => field8 b i = 5 ∧ field8 b (i + 5) = cause.code ∧
      b[i + 6]? = some station ∧ field8 b (i + 7) = 0 ∧ field16 b (i + 8) = 0
  | .tableCleared n => field8 b i = 6 ∧ field16 b (i + 5) = n % 65536 ∧ field8 b (i + 7) = 0 ∧
      field16 b (i + 8) = 0
  | .holdEnded cause => field8 b i = 7 ∧ field8 b (i + 5) = cause.code ∧ field16 b (i + 6) = 0 ∧
      field16 b (i + 8) = 0

/-! ### Grants and the controller's own events -/

/-- No grant is due: a frame is in transmission, or no through frame and, at an ASSIGNED controller, no
reply and no record waits (R160, R166). -/
def NoGrantDue (s : State) : Prop :=
  s.port.sending.isSome ∨ (s.port.fifo = [] ∧
    (s.port.station = none ∨ (s.commands.replies = [] ∧ s.reports.queue = [])))

/-- An own event of the controller is due at the state's moment: a grant is, or its timer runs and has
reached its moment (R98, R100, R107, R115, R128, R139, R156, R166, R184). -/
def Due (s : State) : OwnEvent → Prop
  | .grant => ¬ NoGrantDue s
  | .started => s.startDue.isSome ∧ 40 ≤ s.clock
  | .gap => ∃ g, (s.port.receiver = .length g ∨ ∃ n got, s.port.receiver = .collecting n got g) ∧
      g ≤ s.clock
  | .sent => ∃ f ends, s.port.sending = some (f, ends) ∧ ends ≤ s.clock
  | .lateBound => s.supervisor.state ≠ .noSync ∧ ∃ r, s.supervisor.reference = some r ∧
      r + s.supervisor.period + s.supervisor.window ≤ s.now
  | .dwell => ∃ w ends, s.lamps.sweep = some w ∧ w.run = .running ends ∧ ends ≤ s.now
  | .hold => ∃ ends, s.lamps.holdEnds = some ends ∧ ends ≤ s.now
  | .phase c => ∃ p ends, (s.generators.get c).phase = some (p, ends) ∧ ends ≤ s.now
  | .debounce i => ∃ m, (s.line i).timer = some m ∧ m + s.panel.debounce ≤ s.now
  | .sense => s.lamps.senseDue ≤ s.now

/-- No own event of the controller, but for the expiry of a gap timer, is due from a state's moment up to
a later one, as the state stands. -/
def QuietUntil (moment : Nat) (s : State) : Prop :=
  ∀ e, e ≠ .gap → ∀ c, s.clock ≤ c → c < moment → ¬ Due { s with clock := c } e

/-- A number of own events of the controller, each due when it is taken, and of passages of time, over
which no own event is due before the moment the clock moves to, lead from one state to another. The
number of sensings is the model's own (assumption log 7). -/
inductive OwnRun : Nat → State → State → Prop where
  | done (s : State) : OwnRun 0 s s
  | event (n : Nat) (s t u : State) (e : OwnEvent) (currents : BitVec 256) (sensings : Nat) :
      Due s e →
      exec (e.row currents) { s with lamps := { s.lamps with sampleNo := sensings } } = .next t →
      OwnRun n t u → OwnRun (n + 1) s u
  | time (n : Nat) (s u : State) (moment : Nat) : s.clock < moment →
      (∀ e c, s.clock ≤ c → c < moment → ¬ Due { s with clock := c } e) →
      OwnRun n { s with clock := moment } u → OwnRun (n + 1) s u

/-! ### Characters and frames on the line, in the words of R152 to R154 -/

/-- The data bits of a character carry a byte, least significant first: the high level a 1, by the
model's choice (R152; assumption log 30). -/
def Carries (c : Character) (b : Byte) : Prop :=
  ∀ (k : Nat) (h : k < 8), b.getLsbD k = true ↔ c.data[k] = .high

/-- The CRC register stepped once: shifted left by one place, and combined with 1021h where its most
significant bit was 1 (R154). -/
def crcShift (r : BitVec 16) : BitVec 16 :=
  if r.getLsbD 15 = true then (r <<< 1) ^^^ 0x1021 else r <<< 1

/-- The CRC of some bytes: from FFFFh, each byte is combined into the upper eight bits of the register,
which is then stepped eight times (R154). -/
def crcOf (bytes : List Byte) : BitVec 16 :=
  bytes.foldl (fun r b => crcShift^[8] (r ^^^ (b ++ (0 : Byte)))) 0xFFFF

/-- The bytes of a frame that its CRC is of: LENGTH, which counts KIND to the last body byte, KIND, DEST,
SRC and the body (R153, R154). -/
def Frame.checked (f : Frame) : List Byte :=
  [BitVec.ofNat 8 (f.body.length + 3), f.kind, f.dest, f.src] ++ f.body

/-- The bytes of a frame in the order of R153: LEAD A9h, the checked bytes, and the CRC, its upper eight
bits first. -/
def Frame.sentAs (f : Frame) : List Byte :=
  [0xA9] ++ f.checked ++ [(crcOf f.checked).extractLsb' 8 8, (crcOf f.checked).extractLsb' 0 8]

/-! ### Commands and their replies -/

/-- An ASSIGNED controller with a number that is a section's: neither broadcast nor the loop head's
(R153, R159). -/
def AssignedAs (s : State) (n : Byte) : Prop := s.port.station = some n ∧ n ≠ 0 ∧ n ≠ 63

/-- A COMMAND frame reaches the Command Unit addressed to the station, and finds a reply slot free
(R162 row 4, R174); no grant is due, which would be made before it (R166). -/
structure Addressed (s : State) (h : CommandHead) : Prop where
  assigned : AssignedAs s h.dest
  fromHead : h.src = 63
  room : s.commands.replies.length + s.commands.reserved < 4
  noGrant : NoGrantDue s

/-- The Loop Port after a good frame that it does not forward: the receiver HUNTING, the bad run 0
(R155, R157). -/
def Heard (s t : State) : Prop := t.port = { s.port with receiver := .hunting, badRun := 0 }

/-- One reply more stands in the queue, behind those queued: a REPLY frame to the loop head under the
station number the command was sent to, with the command's tag and code, the result code and data
(R173, R179, R200). -/
def OneReply (s t : State) (h : CommandHead) (code : Byte) (r : Result) (data : List Byte) : Prop :=
  t.commands = { s.commands with
    replies := s.commands.replies ++ [⟨0x05, 63, h.dest, h.tag :: code :: byteOf r.code :: data⟩] }

/-- The command is answered and nothing else of the part changes. -/
def AnsweredOnly (s t : State) (h : CommandHead) (code : Byte) (r : Result) (data : List Byte) :
    Prop :=
  t = { s with port := t.port, commands := t.commands } ∧ Heard s t ∧ OneReply s t h code r data

/-- The state after a frame was forwarded at an ASSIGNED controller: the frame in the through FIFO,
or discarded from a full one with the forward-drop count and the FORWARD_DROP cause (R163, R165). -/
def State.passedOn (s : State) (f : Frame) : State :=
  if s.port.fifo.length < 4 then
    { s with port := { s.port with
        receiver := .hunting, badRun := 0, fifo := s.port.fifo ++ [f] } }
  else
    { s with
      port := { s.port with
        receiver := .hunting, badRun := 0
        forwardDrops := if s.port.forwardDrops < 65535 then s.port.forwardDrops + 1
          else s.port.forwardDrops }
      reports := s.reports.caused s.stamp .forwardDrop }

/-- A command row of the table: its constructor, its command code, the length of its parameters and
whether it is broadcast-allowed. -/
structure CommandRow where
  row : CommandHead → List Byte → Instr
  code : Byte
  length : Nat
  broadcast : Bool

/-- The commands of the part (R200, table of 11.4; R176). SET CADENCE and HOLD have two rows each. -/
def commandTable : List CommandRow :=
  [⟨.status, 0x01, 0, false⟩, ⟨.setStation, 0x02, 1, false⟩, ⟨.restart, 0x03, 0, true⟩,
    ⟨.setTiming, 0x10, 6, true⟩, ⟨.resync, 0x11, 0, true⟩, ⟨.setCadenceRun, 0x12, 4, true⟩,
    ⟨.setCadenceStop, 0x12, 4, true⟩, ⟨.pointLoad, 0x20, 27, false⟩,
    ⟨.pointDrop, 0x21, 3, false⟩, ⟨.pointRead, 0x22, 3, false⟩, ⟨.tableClear, 0x23, 0, false⟩,
    ⟨.tableScan, 0x24, 3, false⟩, ⟨.groupSet, 0x25, 2, false⟩,
    ⟨.outstationRead, 0x30, 2, false⟩, ⟨.setStaleLimit, 0x31, 1, false⟩,
    ⟨.ackPoint, 0x40, 4, false⟩, ⟨.ackGroup, 0x41, 1, false⟩, ⟨.ackAll, 0x42, 0, true⟩,
    ⟨.silence, 0x43, 0, true⟩, ⟨.hornSet, 0x44, 3, false⟩, ⟨.lampOverride, 0x50, 4, false⟩,
    ⟨.lampRead, 0x51, 1, false⟩, ⟨.holdOn, 0x52, 3, true⟩, ⟨.holdOff, 0x52, 3, true⟩,
    ⟨.prove, 0x53, 1, false⟩, ⟨.clearLampFaults, 0x54, 1, false⟩, ⟨.lineSet, 0x60, 7, false⟩,
    ⟨.lineWrite, 0x61, 2, false⟩, ⟨.lineRead, 0x62, 0, false⟩,
    ⟨.conditionClear, 0x70, 1, true⟩, ⟨.conditionRaise, 0x71, 1, false⟩,
    ⟨.reportMask, 0x72, 1, false⟩]

/-! ### The POINT LOAD block, in the words of R7 to R11 -/

/-- R7: a field of the block is out of range. -/
def BadFields (b : List Byte) : Prop :=
  field16 b 0 = 0 ∨ 4095 < field16 b 0 ∨
  ¬ (upperNibble b 3 = 1 ∨ upperNibble b 3 = 2 ∨ upperNibble b 3 = 3) ∨
  (upperNibble b 3 = 1 ∧ field8 b 5 ≠ 1) ∨ (upperNibble b 3 = 2 ∧ field8 b 5 ≠ 2) ∨
  (upperNibble b 3 = 3 ∧ ¬ (1 ≤ field8 b 5 ∧ field8 b 5 ≤ 16)) ∨
  (upperNibble b 3 = 1 ∧ ¬ (lowerNibble b 3 = 1 ∨ lowerNibble b 3 = 2)) ∨
  (upperNibble b 3 = 3 ∧ ¬ (lowerNibble b 3 = 3 ∨ lowerNibble b 3 = 4)) ∨
  (upperNibble b 3 = 2 ∧ lowerNibble b 3 ≠ 0) ∨
  16 < field8 b 6 ∨ 3 < upperNibble b 7 ∨
  ¬ (lowerNibble b 7 = 1 ∨ lowerNibble b 7 = 2 ∨ lowerNibble b 7 = 3) ∨
  (upperNibble b 3 = 1 ∧ 1 < upperNibble b 8) ∨ (upperNibble b 3 = 2 ∧ 1 < lowerNibble b 8)

/-- A threshold field that is present: not FFFFh (R200). -/
def Present (b : List Byte) (i : Nat) : Prop := field16 b i ≠ 0xFFFF

/-- R9's last condition: a low threshold and a high one, the larger present low one not far enough
below the smaller present high one. LL is at offset 18, L at 20, H at 22, HH at 24. -/
def SidesMeet (b : List Byte) : Prop :=
  ∃ low high, (low = 18 ∨ low = 20) ∧ (high = 22 ∨ high = 24) ∧ Present b low ∧ Present b high ∧
    field16 b high ≤ field16 b low + 2 * field8 b 26

/-- R9: the analogue parameters of the block are not acceptable. -/
def BadAnalogue (b : List Byte) : Prop :=
  upperNibble b 3 = 3 ∧
  (field16 b 12 ≤ field16 b 10 ∨ field16 b 10 < field16 b 14 ∨
    65535 < field16 b 12 + field16 b 16 ∨
    (∃ i, (i = 18 ∨ i = 20 ∨ i = 22 ∨ i = 24) ∧ Present b i ∧ 1000 < field16 b i) ∨
    (Present b 18 ∧ Present b 20 ∧ field16 b 20 < field16 b 18) ∨
    (Present b 22 ∧ Present b 24 ∧ field16 b 24 < field16 b 22) ∨
    100 < field8 b 26 ∨ SidesMeet b)

/-- The key a block carries. -/
def blockKey (b : List Byte) : Key := ⟨field16 b 0, field8 b 2⟩

/-- R10: a lamp of the block is a lamp of an entry with a different key. -/
def LampTaken (s : State) (b : List Byte) : Prop :=
  ∃ e ∈ s.points, e.key ≠ blockKey b ∧ ∃ c, e.firstLamp ≤ c ∧ c < e.firstLamp + e.span ∧
    field8 b 4 ≤ c ∧ c < field8 b 4 + field8 b 5

/-- R11, fifth check: no place for a new entry. -/
def NoPlace (s : State) (b : List Byte) : Prop :=
  s.point (blockKey b) = none ∧ 512 ≤ s.points.length

/-- R11, sixth check: no place for a new outstation. -/
def NoOutstation (s : State) (b : List Byte) : Prop :=
  s.point (blockKey b) = none ∧ s.outstation (field16 b 0) = none ∧ 32 ≤ s.outstations.length

/-- The six checks of POINT LOAD all pass (R6). -/
def Loadable (s : State) (b : List Byte) : Prop :=
  b.length = 27 ∧ ¬ BadFields b ∧ field8 b 4 + field8 b 5 ≤ 256 ∧ ¬ BadAnalogue b ∧
    ¬ LampTaken s b ∧ ¬ NoPlace s b ∧ ¬ NoOutstation s b

/-- An entry holds the configuration of a block, the parameters of its own class alone, and fresh
dynamic fields (R2, R3, R4; R200, 11.4.1). -/
structure LoadedFrom (e : PointEntry) (b : List Byte) : Prop where
  key : e.key = blockKey b
  lamps : e.firstLamp = field8 b 4 ∧ e.span = field8 b 5
  group : e.group = field8 b 6
  priority : e.priority = upperNibble b 7
  policy : e.policy.code = lowerNibble b 7
  binary : upperNibble b 3 = 1 →
    e.cls = .binary (lowerNibble b 3 = 2) (upperNibble b 8 = 1)
  double : upperNibble b 3 = 2 → e.cls = .double (field8 b 9) (lowerNibble b 8 = 1)
  analogue : upperNibble b 3 = 3 →
    e.cls = .analogue (if lowerNibble b 3 = 3 then .bar else .dot)
      { rawLo := field16 b 10, rawHi := field16 b 12, underMargin := field16 b 14,
        overMargin := field16 b 16
        ll := if field16 b 18 = 0xFFFF then none else some (field16 b 18)
        l := if field16 b 20 = 0xFFFF then none else some (field16 b 20)
        h := if field16 b 22 = 0xFFFF then none else some (field16 b 22)
        hh := if field16 b 24 = 0xFFFF then none else some (field16 b 24)
        deadband := field8 b 26 }
  fresh : e.raw = none ∧ e.decoded = none ∧ e.band = .normal ∧ e.itemInvalid = false ∧
    e.sensorFault = false ∧ e.travel = 0
  record : e.alarm = if e.priority = 0 then none else some ⟨.normal, none, 0, none⟩

/-! ### The alarm sequence, in the words of R64 to R67 -/

/-- What a result of evaluation makes of an alarm record: the new record, and the transition (R65,
row by row; R66 for the generation and the raised stamp). -/
def alarmAfter (a : AlarmRecord) (result : Option Cause) (now : Stamp) :
    AlarmRecord × Option Transition :=
  let raised (c : Cause) : AlarmRecord × Option Transition :=
    (⟨.unack, some c, a.generation + 1, some now⟩, some .raised)
  match a.state, result with
  | .normal, none => (a, none)
  | .normal, some c => raised c
  | .unack, none => ({ a with state := .rtnUnack }, some .returned)
  | .acked, none => ({ a with state := .normal, cause := none }, some .cleared)
  | .rtnUnack, none => (a, none)
  | .rtnUnack, some c => raised c
  | .unack, some c =>
    if a.cause = some c then (a, none)
    else if (a.cause = some .highHigh ∧ c = .high) ∨ (a.cause = some .lowLow ∧ c = .low) then
      ({ a with cause := some c }, some .updated)
    else raised c
  | .acked, some c =>
    if a.cause = some c then (a, none)
    else if (a.cause = some .highHigh ∧ c = .high) ∨ (a.cause = some .lowLow ∧ c = .low) then
      ({ a with cause := some c }, some .updated)
    else raised c

/-- The cause an ALARM record carries: the cause standing after a RAISED or UPDATED, the cause that
stood before any other transition (R67). -/
def causeCarried (t : Transition) (old new : AlarmRecord) : Option Cause :=
  match t with
  | .raised => new.cause
  | .updated => new.cause
  | .returned => old.cause
  | .acked => old.cause
  | .cleared => old.cause
  | .removed => old.cause

/-- The points with the alarm record of one key replaced, every other field kept. -/
def withAlarm (points : List PointEntry) (k : Key) (a : AlarmRecord) : List PointEntry :=
  points.map fun x => if x.key = k then { x with alarm := some a } else x

/-- The points after a quality return over a scope: each entry whose quality was OFFLINE or STALE in
the state before and is GOOD or SENSOR_FAULT now is evaluated, every other one is left (R58). -/
def afterReturn (before now : State) (scope : PointEntry → Bool) : List PointEntry :=
  now.points.map fun e =>
    if scope e = true ∧ (before.quality e = .offline ∨ before.quality e = .stale) ∧
        (now.quality e = .good ∨ now.quality e = .sensorFault) then
      match e.alarm with
      | some a => { e with alarm := some (alarmAfter a e.evaluate now.stamp).1 }
      | none => e
    else e

/-- The points after an acknowledgement of a scope (R77, R79, R80). -/
def afterAcknowledge (points : List PointEntry) (scope : PointEntry → Bool) : List PointEntry :=
  points.map fun e =>
    match e.alarm with
    | some a =>
      if scope e = true ∧ a.state = .unack then { e with alarm := some { a with state := .acked } }
      else if scope e = true ∧ a.state = .rtnUnack then
        { e with alarm := some { a with state := .normal, cause := none } }
      else e
    | none => e

/-- Whether a priority has the horn enabled (R73). -/
def AlarmUnit.hornOn (a : AlarmUnit) (priority : Nat) : Bool :=
  (priority == 1 && a.enable1) || (priority == 2 && a.enable2) || (priority == 3 && a.enable3)

/-- The counts after a transition from an alarm state, row by row of R69's table. -/
def AlarmUnit.counted (a : AlarmUnit) (priority : Nat) (t : Transition) (old : AlarmState) :
    AlarmUnit :=
  let h := if a.hornOn priority then 1 else 0
  match t, old with
  | .raised, .unack => a
  | .raised, .rtnUnack =>
    { a with unack := a.unack + 1, ringback := a.ringback - 1, hornCount := a.hornCount + h }
  | .raised, _ => { a with unack := a.unack + 1, hornCount := a.hornCount + h }
  | .returned, _ =>
    { a with unack := a.unack - 1, ringback := a.ringback + 1, hornCount := a.hornCount - h }
  | .acked, .unack => { a with unack := a.unack - 1, hornCount := a.hornCount - h }
  | .acked, _ => { a with ringback := a.ringback - 1 }
  | .updated, _ => a
  | .cleared, _ => a
  | .removed, _ => a

/-- The horn after a transition, by the counts that stand after it: a RAISED of a horn-enabled priority
sounds it; a horn count of 0 that a RAISED did not leave turns it off (R70, R71). -/
def AlarmUnit.horned (a : AlarmUnit) (priority : Nat) (t : Transition) : AlarmUnit :=
  if t = .raised then
    if a.hornOn priority then { a with horn := .sounding } else a
  else if a.hornCount = 0 then { a with horn := .off } else a

/-- First-up of the entry's group after a transition: RAISED makes the entry the holder where the enable
is on and there is none; a holder that reaches NORMAL is it no more (R74, R75). -/
def Group.firstUpAfter (g : Group) (k : Key) (t : Transition) (new : AlarmState) : Group :=
  if t = .raised then if g.firstUp ∧ g.holder = none then ⟨true, some k⟩ else g
  else if new = .normal ∧ g.holder = some k then ⟨g.firstUp, none⟩ else g

/-- The part of the alarm side beside the records: counts and horn, groups, event records. -/
structure AlarmBoard where
  alarms : AlarmUnit
  groups : Vector Group 16
  reports : Reports

/-- The alarm board of a state. -/
def State.board (s : State) : AlarmBoard := ⟨s.alarms, s.groups, s.reports⟩

/-- Steps 2 to 5 of a transition (R68): counts, first-up, horn, and the ALARM record with the cause of
R67 and the record's generation. -/
def AlarmBoard.after (x : AlarmBoard) (now : Stamp) (e : PointEntry) (t : Transition)
    (old new : AlarmRecord) : AlarmBoard :=
  { alarms := (x.alarms.counted e.priority t old.state).horned e.priority t
    groups := Table.mapIdx (fun i g =>
      if i + 1 = e.group then g.firstUpAfter e.key t new.state else g) x.groups
    reports := x.reports.joined now (.alarm e.key t (causeCarried t old new) new.generation) }

/-- The alarm board after an entry is evaluated: the transition of R65, if any, with its effects
(R68, R187). -/
def AlarmBoard.evaluated (now : Stamp) (x : AlarmBoard) (e : PointEntry) : AlarmBoard :=
  match e.alarm with
  | some a =>
    match (alarmAfter a e.evaluate now).2 with
    | some t => x.after now e t a (alarmAfter a e.evaluate now).1
    | none => x
  | none => x

/-- The alarm side after a quality return over a scope (R58): the returned entries' records, and the
counts, the horn, the holders and the event records that their transitions leave, one entry after
another in ascending key order. -/
structure Returned (before now t : State) (scope : PointEntry → Bool) : Prop where
  points : t.points = afterReturn before now scope
  board : t.board = (now.points.filter fun e => scope e &&
    (before.quality e == .offline || before.quality e == .stale) &&
    (now.quality e == .good || now.quality e == .sensorFault)).foldl
      (AlarmBoard.evaluated now.stamp) now.board

/-- The alarm side after every unacknowledged entry of a scope is acknowledged (R77, R79, R80): the
records, the ACKED event records in ascending key order, the counts and the horn, the holders. -/
structure Acknowledged (s t : State) (scope : PointEntry → Bool) : Prop where
  points : t.points = afterAcknowledge s.points scope
  reports : t.reports = (s.points.filter fun e => scope e && e.unacknowledged).foldl
    (fun r e => r.joined s.stamp (.alarm e.key .acked ((e.alarm.getD .fresh).cause)
      (e.alarm.getD .fresh).generation)) s.reports
  counts : t.alarms = { s.alarms with
    unack := s.alarms.unack - s.points.countP fun e => scope e && e.alarmState == .unack
    ringback := s.alarms.ringback - s.points.countP fun e => scope e && e.alarmState == .rtnUnack
    hornCount := s.alarms.hornCount - s.points.countP fun e =>
      scope e && e.alarmState == .unack && s.alarms.hornOn e.priority
    horn := if t.alarms.hornCount = 0 ∧ s.points.any (fun e => scope e && e.unacknowledged)
      then .off else s.alarms.horn }
  holders : ∀ (g : Nat) (h : g < 16), t.groups[g] =
    if s.points.any (fun e => scope e && e.alarmState == .rtnUnack && e.group == g + 1 &&
        s.groups[g].holder == some e.key)
      then ⟨s.groups[g].firstUp, none⟩ else s.groups[g]

/-- An entry evaluated where it stands: its record as R65 and R66 make it (R43). -/
def PointEntry.evaluated (now : Stamp) (e : PointEntry) : PointEntry :=
  match e.alarm with
  | some a => { e with alarm := some (alarmAfter a e.evaluate now).1 }
  | none => e

/-- An accepted marker advances the travel count of an entry, by the state at its arrival (R35). -/
def State.travels (s : State) (e : PointEntry) : Bool :=
  match e.cls with
  | .double limit _ => e.decoded == some (.position .travel) && s.quality e == .good &&
      decide (e.travel < limit)
  | _ => false

/-- The entries whose travel count the marker brings to its limit, with the count advanced, in key
order (R35). -/
def State.stuckNow (s : State) : List PointEntry :=
  (s.points.filter s.travels).filterMap fun e =>
    match e.cls with
    | .double limit _ => if e.travel + 1 = limit then some { e with travel := limit } else none
    | _ => none

/-- The points after the travel advance of an accepted marker: the counts advanced, and the entries at
their limit evaluated (R35). -/
def State.afterTravel (s : State) (now : Stamp) : List PointEntry :=
  s.points.map fun e =>
    match e.cls with
    | .double limit _ =>
      if s.travels e then
        if e.travel + 1 = limit then PointEntry.evaluated now { e with travel := limit }
        else { e with travel := e.travel + 1 }
      else e
    | _ => e

/-- What one item of a POINTS frame does from a state u to a state v, the lamps left for the end of the
frame (R25 to R30): an item that cannot be placed is counted UNMAPPED; one for a known outstation
refreshes its entry, with quality return for its other points where the stale flag was set, and
then marks its point invalid, or stores the value and evaluates the point where it is trusted. -/
structure ItemTaken (n index raw : Nat) (invalid : Bool) (u v : State) : Prop where
  unmapped : n = 0 ∨ u.outstation n = none →
    v = { u with unmapped := if u.unmapped < 65535 then u.unmapped + 1 else u.unmapped }
  known : n ≠ 0 → ∀ o, u.outstation n = some o → ∃ m : State,
    m = { u with
      points := m.points, alarms := m.alarms, groups := m.groups, reports := m.reports
      outstations := u.outstations.map fun x =>
        if x.number = n then { x with silence := 0, stale := false } else x } ∧
    (o.stale = false → m = { u with outstations := m.outstations }) ∧
    (o.stale = true → Returned u { u with outstations := m.outstations } m
      fun e => e.key.outstation == n && e.key != ⟨n, index⟩) ∧
    (m.point ⟨n, index⟩ = none →
      v = { m with unmapped := if m.unmapped < 65535 then m.unmapped + 1 else m.unmapped }) ∧
    ∀ e, m.point ⟨n, index⟩ = some e →
      (invalid = true → v = { m with points := m.points.map fun x =>
        if x.key = e.key then { e with itemInvalid := true } else x }) ∧
      (invalid = false → (m.quality (e.store raw) = .offline ∨ m.quality (e.store raw) = .stale) →
        v = { m with points := m.points.map fun x =>
          if x.key = e.key then e.store raw else x }) ∧
      (invalid = false → (m.quality (e.store raw) = .good ∨
          m.quality (e.store raw) = .sensorFault) →
        v = { m with
          points := m.points.map fun x =>
            if x.key = e.key then (e.store raw).evaluated m.stamp else x
          alarms := (AlarmBoard.evaluated m.stamp m.board (e.store raw)).alarms
          groups := (AlarmBoard.evaluated m.stamp m.board (e.store raw)).groups
          reports := (AlarmBoard.evaluated m.stamp m.board (e.store raw)).reports })

/-- A threshold is present and the fill stands at or above it less a margin, a difference below 0 being
taken as 0 (R40). -/
def AtLeast (threshold : Option Nat) (margin fill : Nat) : Prop :=
  ∃ t, threshold = some t ∧ t - margin ≤ fill

/-- A threshold is present and the fill stands at or below it plus a margin, a sum above 1000 being
taken as 1000 (R41). -/
def AtMost (threshold : Option Nat) (margin fill : Nat) : Prop :=
  ∃ t, threshold = some t ∧ fill ≤ min 1000 (t + margin)

/-- The points stand in ascending key order, so no key twice (R1). -/
def KeysRise (s : State) : Prop := s.points.Pairwise fun a b => a.key.lt b.key

/-- An entry's part in the alarm sequence is settled at its replacement or removal (R13, R83). -/
structure Retired (s t : State) (e : PointEntry) : Prop where
  quiet : (∀ a, e.alarm = some a → a.state = .normal) →
    t.alarms = s.alarms ∧ t.groups = s.groups ∧ t.reports = s.reports
  reported : ∀ a, e.alarm = some a → a.state ≠ .normal →
    t.reports = s.reports.joined s.stamp (.alarm e.key .removed a.cause a.generation)
  released : ∀ a, e.alarm = some a → a.state ≠ .normal → ∀ (g : Nat) (h : g < 16),
    t.groups[g] = if g + 1 = e.group ∧ s.groups[g].holder = some e.key
      then ⟨s.groups[g].firstUp, none⟩ else s.groups[g]
  discounted : ∀ a, e.alarm = some a → a.state ≠ .normal →
    t.alarms = { s.alarms with
      unack := s.alarms.unack - (if a.state = .unack then 1 else 0)
      ringback := s.alarms.ringback - (if a.state = .rtnUnack then 1 else 0)
      hornCount := s.alarms.hornCount -
        (if a.state = .unack ∧ s.alarms.hornOn e.priority = true then 1 else 0)
      horn := if t.alarms.hornCount = 0 then .off else s.alarms.horn }

/-- A realignment at one generator (R131, R133). -/
def realigned (now : Nat) (g : Generator) : Generator :=
  match g.run with
  | .running =>
    { times := g.reload.getD g.times, reload := none, run := .running
      phase := some (.on, now + 10 * (g.reload.getD g.times).on) }
  | .stopping =>
    { times := g.reload.getD g.times, reload := none, run := .stopped, phase := none }
  | .stopped => g

/-! ### Panel lines, in the words of R137 and R144 -/

/-- A line is active: an INPUT line by its debounced level, an OUTPUT line while its source is (R137,
R144, R145, R197). Bit k of the latches and of the report mask stands for condition k. -/
def Active (s : State) (l : Line) : Prop :=
  match l.direction with
  | .input => (l.polarity = .activeLow ∧ l.level = some .low) ∨
      (l.polarity = .activeHigh ∧ l.level = some .high)
  | .output =>
    match l.source with
    | .latch => l.latch = true
    | .horn => s.alarms.horn = .sounding
    | .fault => ∃ k, k < 8 ∧ s.reports.latched.getLsbD k = true ∧ s.reports.mask.getLsbD k = true
    | .alarmPresent => 0 < s.alarms.unack + s.alarms.ringback
    | .attention => 0 < s.alarms.unack ∧ ∃ ends, s.generators.alert.phase = some (.on, ends)

/-! ### Lamps -/

/-- A channel record without its driven level and source, which follow from the rest of the state. -/
def Channel.kept (ch : Channel) : Channel := { ch with driven := .dark, source := .none }

/-- Every channel shows what R89 gives it. -/
def LampsSettled (s : State) : Prop :=
  ∀ (c : Nat) (h : c < 256), (s.lamps.channels[c].driven, s.lamps.channels[c].source) =
    s.drive c s.lamps.channels[c]

/-- The Lamp Drive Unit changes in nothing but what the channels show, and they show what R89 gives. -/
def OnlyRedriven (s t : State) : Prop :=
  t.lamps = { s.lamps with channels := t.lamps.channels } ∧ LampsSettled t ∧
    ∀ (c : Nat) (h : c < 256), t.lamps.channels[c].kept = s.lamps.channels[c].kept

/-- HOLD has ended: it is not in effect, every held level is absent, and every channel shows what R89 gives
it (R98). -/
def HoldEnded (s t : State) : Prop :=
  t.lamps = { s.lamps with holdEnds := none, channels := t.lamps.channels } ∧ LampsSettled t ∧
    ∀ (c : Nat) (h : c < 256), t.lamps.channels[c].kept =
      { s.lamps.channels[c].kept with held := none }

/-- The lamps follow a change that may begin or end lamp test: a sweep pauses or resumes with a full
dwell (R108), every channel is driven anew, and nothing else of the unit changes. -/
structure LampsFollow (s t : State) : Prop where
  same : t.lamps = { s.lamps with channels := t.lamps.channels, sweep := t.lamps.sweep }
  settled : LampsSettled t
  kept : ∀ (c : Nat) (h : c < 256), t.lamps.channels[c].kept = s.lamps.channels[c].kept
  sweep : t.lamps.sweep = s.lamps.sweep.map fun w =>
    { w with run :=
        if t.panel.lampTest = true then .paused
        else match w.run with
          | .paused => .running (t.now + 200)
          | .running d => .running d }

/-- Lamp test is active exactly while an active INPUT line has the function LAMP_TEST (R142). -/
def LampTestFollows (t : State) : Prop :=
  t.panel.lampTest = true ↔ ∃ i, (t.line i).direction = .input ∧
    (t.line i).function = .lampTest ∧ (t.line i).inputActive = true

/-- A sample at a sense instant of a channel, judged as R102 says: the new record but for what it
shows, and the fault newly set. -/
def judged (ch : Channel) (expected current : Bool) : Channel × Option FaultKind :=
  let ch := { ch with sensed := if current then .present else .absent }
  if current = expected then ({ ch with mismatch := 0 }, none)
  else match ch.fault with
    | some _ => ({ ch with mismatch := if ch.mismatch < 2 then ch.mismatch + 1 else 2 }, none)
    | none =>
      if ch.mismatch < 2 then ({ ch with mismatch := ch.mismatch + 1 }, none)
      else if expected then ({ ch with mismatch := 0, fault := some .opened }, some .opened)
      else ({ ch with mismatch := 0, fault := some .leaking }, some .leaking)

/-- The judgement of lamp k of a sweep's bank at the end of a dwell (R107): the new record but for what
it shows, and the fault newly set. -/
def proved (w : Sweep) (k : Nat) (ch : Channel) (current : Bool) : Channel × Option FaultKind :=
  let ch := { ch with sensed := if current then .present else .absent }
  let failed (kind : FaultKind) : Channel × Option FaultKind :=
    match ch.fault with
    | some _ => ({ ch with mismatch := 0 }, none)
    | none => ({ ch with mismatch := 0, fault := some kind }, some kind)
  if w.step = 0 then if current then failed .leaking else (ch, none)
  else if w.step ≠ k + 1 then (ch, none)
  else if ¬ current then failed .opened
  else if w.failedDark.getLsbD k then (ch, none)
  else ({ ch with mismatch := 0, fault := none }, none)

/-- What a sweep keeps of a step: the lamps that failed step 0, and whether the step's own lamp failed
(R107). Bit k of the samples is the current of lamp k. -/
def Sweep.kept (w : Sweep) (samples : BitVec 16) : Sweep :=
  if w.step = 0 then { w with failedDark := samples }
  else { w with failedOwn := w.failedOwn ||| ((1#16 <<< (w.step - 1)) &&& ~~~ samples) }

/-- The data of the completion reply (R109; R200, 11.4.4): the bank, the results of lamps 0..15, the pass
set and the fail set. -/
def Sweep.completionData (w : Sweep) : List Byte :=
  byteOf w.bank :: (List.range 16).map (fun k =>
      if w.failedDark.getLsbD k then if w.failedOwn.getLsbD k then 3 else 1
      else if w.failedOwn.getLsbD k then 2 else 0) ++
    bytes16 (~~~ (w.failedDark ||| w.failedOwn)).toNat ++
    bytes16 (w.failedDark ||| w.failedOwn).toNat

/-- The faults newly set by a judgement of the channels, in ascending channel order. -/
def State.faultsFound (s : State) (judge : Nat → Channel → Channel × Option FaultKind) :
    List (Nat × FaultKind) :=
  (List.range 256).filterMap fun c =>
    (s.lamps.channels[c]?).bind fun ch => (judge c ch).2.map fun kind => (c, kind)

/-- A judgement of the channels for which a current is expected, by the sample at each sense input
(R100 to R102). -/
def senseJudge (expects : Nat → Channel → Option Bool) (currents : BitVec 256) (c : Nat)
    (ch : Channel) : Channel × Option FaultKind :=
  match expects c ch with
  | some e => judged ch e (currents.getLsbD c)
  | none => (ch, none)

/-- A sense instant: the channels judged, and for each fault newly set its LAMP_FAULT record and then its
LAMP_FAULT cause, in ascending channel order (R102). -/
structure SensedBy (s t : State) (expects : Nat → Channel → Option Bool) (currents : BitVec 256) :
    Prop where
  channels : ∀ (c : Nat) (h : c < 256), t.lamps.channels[c] =
    (senseJudge expects currents c s.lamps.channels[c]).1
  reports : t.reports = (s.faultsFound (senseJudge expects currents)).foldl
    (fun r f => (r.joined t.stamp (.lampFault f.1 f.2)).caused t.stamp .lampFault) s.reports

/-! ### Laws every state keeps -/

/-- The queues and counts stay within their ranges, slots are reserved exactly for a sweep, and HOLD
and a sweep are never in effect together (R28, R89, R151, R165, R166, R173, R183, R185). -/
structure QueuesFit (s : State) : Prop where
  replies : s.commands.replies.length + s.commands.reserved ≤ 4
  reserved : s.commands.reserved = if s.lamps.sweep.isSome then 1 else 0
  exclusive : s.lamps.sweep.isSome → s.lamps.holdEnds = none
  fifo : s.port.fifo.length ≤ 4
  localWait : s.port.localWait ≤ 8
  frameErrors : s.port.frameErrors ≤ 65535
  badRun : s.port.badRun ≤ 8
  returned : s.port.returned ≤ 255
  foreign : s.port.foreign ≤ 255
  forwardDrops : s.port.forwardDrops ≤ 65535
  dropped : s.commands.dropped ≤ 255
  unmapped : s.unmapped ≤ 65535
  events : s.reports.queue.length ≤ 48
  lost : s.reports.lost ≤ 255
  passOnly : s.port.station = none ↔ s.port.straps = 0 ∨ s.port.straps = 63
  station : ∀ n, s.port.station = some n → 1 ≤ n.toNat ∧ n.toNat ≤ 62

/-- The tables stand in their orders and within their capacities, the outstation entries are those
the points name, and the lamps of the entries lie apart within the channels (R1, R5, R20). -/
structure TablesInOrder (s : State) : Prop where
  points : s.points.Pairwise fun a b => a.key.lt b.key
  few : s.points.length ≤ 512
  keys : ∀ e ∈ s.points, 1 ≤ e.key.outstation ∧ e.key.outstation ≤ 4095 ∧ e.key.index ≤ 255
  outstations : s.outstations.Pairwise fun a b => a.number < b.number
  fewOutstations : s.outstations.length ≤ 32
  counted : ∀ n, (s.outstation n).map (·.points) =
    if (s.points.countP fun e => e.key.outstation = n) = 0 then none
    else some (s.points.countP fun e => e.key.outstation = n)
  spans : ∀ e ∈ s.points, e.firstLamp + e.span ≤ 256 ∧
    match e.cls with
    | .binary _ _ => e.span = 1
    | .double _ _ => e.span = 2
    | .analogue _ _ => 1 ≤ e.span ∧ e.span ≤ 16
  apart : s.points.Pairwise fun a b =>
    a.firstLamp + a.span ≤ b.firstLamp ∨ b.firstLamp + b.span ≤ a.firstLamp
  bound : ∀ (c : Nat) (h : c < 256), s.lamps.channels[c].binding =
    (s.points.find? fun e => e.firstLamp ≤ c ∧ c < e.firstLamp + e.span).map (·.key)

/-- The alarm records, the counts, the horn and the first-up holders agree (R4, R63, R69, R71, R75). -/
structure AlarmsAgree (s : State) : Prop where
  presence : ∀ e ∈ s.points, e.priority ≤ 3 ∧ (e.alarm = none ↔ e.priority = 0)
  cause : ∀ e ∈ s.points, ∀ a, e.alarm = some a → (a.cause = none ↔ a.state = .normal)
  unack : s.alarms.unack = s.points.countP fun e => e.alarmState == .unack
  ringback : s.alarms.ringback = s.points.countP fun e => e.alarmState == .rtnUnack
  hornCount : s.alarms.hornCount =
    s.points.countP fun e => e.alarmState == .unack && s.alarms.hornOn e.priority
  horn : s.alarms.hornCount = 0 → s.alarms.horn = .off
  holder : ∀ (g : Nat) (h : g < 16) (k : Key), s.groups[g].holder = some k →
    s.groups[g].firstUp = true ∧
      ∃ e ∈ s.points, e.key = k ∧ e.group = g + 1 ∧ e.alarmState ≠ .normal

/-- A cadence generator is as R127 and R130 say one can be. -/
structure GeneratorLawful (g : Generator) : Prop where
  times : 1 ≤ g.times.on ∧ g.times.on ≤ 250 ∧ 1 ≤ g.times.off ∧ g.times.off ≤ 250
  reload : ∀ t, g.reload = some t → 1 ≤ t.on ∧ t.on ≤ 250 ∧ 1 ≤ t.off ∧ t.off ≤ 250
  stopped : g.run = .stopped ↔ g.phase = none
  settled : g.run = .stopped → g.reload = none

/-- Supervision, silence counts and generators stay within their laws (R52, R53, R115, R127). -/
structure TimeLawful (s : State) : Prop where
  reference : s.supervisor.reference = none ↔ s.supervisor.state = .noSync
  period : 100 ≤ s.supervisor.period ∧ s.supervisor.period ≤ 5000 ∧ s.supervisor.period % 10 = 0
  window : 10 ≤ s.supervisor.window ∧ 2 * s.supervisor.window ≤ s.supervisor.period
  misses : s.supervisor.misses ≤ s.supervisor.missLimit ∧ s.supervisor.missLimit ≤ 255
  skews : s.supervisor.skews ≤ s.supervisor.skewLimit ∧ s.supervisor.skewLimit ≤ 255
  cycle : s.supervisor.cycle ≤ 65535
  staleLimit : s.staleLimit ≤ 255
  silence : ∀ o ∈ s.outstations, o.silence ≤ s.staleLimit ∧
    (o.stale = true ↔ s.staleLimit ≠ 0 ∧ o.silence = s.staleLimit)
  generators : ∀ c, GeneratorLawful (s.generators.get c)

/-- Channels, lines, lamp test and sweep agree (R87, R96, R108, R137 to R142). -/
structure PanelAgrees (s : State) : Prop where
  mismatch : ∀ (c : Nat) (h : c < 256), s.lamps.channels[c].mismatch ≤ 2
  held : ∀ (c : Nat) (h : c < 256),
    s.lamps.channels[c].held.isSome = s.lamps.holdEnds.isSome
  debounce : 10 ≤ s.panel.debounce ∧ s.panel.debounce ≤ 250 ∧ s.panel.debounce % 10 = 0
  group : ∀ i, if (s.line i).function = .ackGroup
    then 1 ≤ (s.line i).group ∧ (s.line i).group ≤ 16 else (s.line i).group = 0
  output : ∀ i, (s.line i).direction = .output → (s.line i).level = none ∧ (s.line i).timer = none
  settling : ∀ i, (s.line i).direction = .input → (s.line i).level = none →
    (s.line i).timer.isSome
  lampTest : s.panel.lampTest = true ↔ ∃ i, (s.line i).direction = .input ∧
    (s.line i).function = .lampTest ∧ (s.line i).inputActive = true
  sweep : ∀ w, s.lamps.sweep = some w →
    (w.run = .paused ↔ s.panel.lampTest = true) ∧ w.bank ≤ 15 ∧ w.step ≤ 16

/-- At a PASS-ONLY controller nothing but the Loop Port, the generators, the time base, the pins and
the model's own counter moves: every other block stands at its hardware reset values (R112, R150,
R160). -/
def PassOnlyIsQuiet (s : State) : Prop :=
  s.port.station = none →
    s.startDue = none ∧ s.points = [] ∧ s.outstations = [] ∧
    s.groups = Vector.replicate 16 ⟨false, none⟩ ∧ s.unmapped = 0 ∧ s.staleLimit = 5 ∧
    s.commands = ⟨[], 0, 0⟩ ∧ s.alarms = ⟨0, 0, 0, .off, true, true, false⟩ ∧
    s.reports = ⟨[], 0, 0, 0xFF⟩ ∧
    s.supervisor = ⟨.noSync, none, 1000, 100, 3, 5, 0, 0, 0, 0⟩ ∧
    s.lamps.channels = Vector.replicate 256 Channel.reset ∧ s.lamps.holdEnds = none ∧
    s.lamps.sweep = none ∧ s.panel.lampTest = false ∧ s.panel.debounce = 50 ∧
    (∀ i, (s.line i).function = .none ∧ (s.line i).direction = .input ∧
      (s.line i).latch = false) ∧
    s.port.frameErrors = 0 ∧ s.port.badRun = 0 ∧ s.port.returned = 0 ∧ s.port.foreign = 0 ∧
    s.port.forwardDrops = 0 ∧ s.port.localWait = 0

end Sys2Proof.Machine
end

