-- ==== Sys2Proof/Certificates/Slice0/Obligations.lean ====
section
/-! DEFINITION. The statements about the machine, in the order of OBLIGATIONS.json: the step and the resets, the
Loop Port, taking commands, every command, the time-driven events, the rules of single operations,
and the laws every step keeps. -/

open Sys2Proof Sys2Proof.Machine

/-! ### The step, the idle time and the resets -/

/-- The step takes the command at the front of the queue: it is `exec` of that command on the state
with the queue's rest (4.5: each event is taken whole, in its order). -/
def Obligations.StepTakesTheFrontCommand : Prop :=
  ∀ (c : Instr) (rest : List Instr) (s : State), s.pending = c :: rest →
    step s = exec c { s with pending := rest }

/-- With no command waiting the step answers a next state: while an event of the controller's own is
due, one that is due is taken, as the row of the table it is, at the moment standing; while none is,
only the clock moves, by at most 1 ms, and no event comes due before the moment it moves to. The
order among due events and the idle step itself are the model's choice (assumption logs 3 and 6),
and so are the free lamp currents and the model's own sample number, which such an event advances
(assumption log 7). -/
def Obligations.IdleStepTakesADueEventOrPassesTime : Prop :=
  ∀ s : State, s.pending = [] → ∃ t, step s = .next t ∧ t.pending = [] ∧
    ((∃ e, Due s e) → ∃ e currents, Due s e ∧
      exec (e.row currents) { s with lamps := { s.lamps with sampleNo := s.lamps.sampleNo + 1 } } =
        .next t ∧
      t.clock = s.clock) ∧
    ((∀ e, ¬ Due s e) → t = { s with clock := t.clock } ∧ s.clock < t.clock ∧
      t.clock ≤ s.clock + 1000 ∧
      ∀ (e : OwnEvent) (c : Nat), s.clock ≤ c → c < t.clock → ¬ Due { s with clock := c } e)

/-- State.reset meets every law that the steps keep. -/
def Obligations.ResetStateIsLawful : Prop :=
  QueuesFit State.reset ∧ TablesInOrder State.reset ∧ AlarmsAgree State.reset ∧
    TimeLawful State.reset ∧ PanelAgrees State.reset ∧ LampsSettled State.reset ∧
    PassOnlyIsQuiet State.reset

/-- HARDWARE_RESET gives every block its hardware reset values and reads the straps, and LOOP OUT
goes to the idle level (R159, R168, R171, R184, and the reset rule of each block). The RESET pin
gives one where it is low for at least 10 µs, and none where it is not (R171). The levels outside
the pins and the waiting commands are kept (the model's choice, assumption log 26), and so is the
model's own sample number (assumption log 7). -/
def Obligations.HardwareResetGivesEveryBlockItsValues : Prop :=
  ∀ (source : ResetSource) (straps : BitVec 6) (s : State),
    (∀ low, source = .resetPin low → low < 10 → NoGrantDue s →
      exec (.hardwareReset source straps) s = .next s) ∧
    ((∀ low, source = .resetPin low → 10 ≤ low) → ∃ t,
    exec (.hardwareReset source straps) s = .next t ∧
    t.clock = 0 ∧ t.pending = s.pending ∧ t.loopOut = .high ∧
    t.port = ⟨straps, if straps = 0 ∨ straps = 63 then none else some (straps.zeroExtend 8),
      .hunting, [], none, 0, 0, 0, 0, 0, 0⟩ ∧
    t.startDue = (if straps = 0 ∨ straps = 63 then none
      else match source with
        | .resetPin _ => some .resetPin
        | .detector => some .powerUp
        | .resetPinAtPowerUp => some .powerUp) ∧
    t.commands = ⟨[], 0, 0⟩ ∧
    t.supervisor = ⟨.noSync, none, 1000, 100, 3, 5, 0, 0, 0, 0⟩ ∧
    t.generators = ⟨⟨⟨25, 25⟩, none, .running, some (.on, 250)⟩,
      ⟨⟨12, 13⟩, none, .running, some (.on, 120)⟩, ⟨⟨60, 60⟩, none, .running, some (.on, 600)⟩,
      ⟨⟨40, 10⟩, none, .running, some (.on, 400)⟩, ⟨⟨10, 190⟩, none, .running, some (.on, 100)⟩⟩ ∧
    t.points = [] ∧ t.outstations = [] ∧ t.unmapped = 0 ∧ t.staleLimit = 5 ∧
    (∀ (g : Nat) (h : g < 16), t.groups[g] = ⟨false, none⟩) ∧
    t.alarms = ⟨0, 0, 0, .off, true, true, false⟩ ∧
    (∀ (c : Nat) (h : c < 256),
      t.lamps.channels[c] = ⟨none, none, .dark, .none, none, .notYet, 0, none⟩) ∧
    t.lamps.holdEnds = none ∧ t.lamps.sweep = none ∧ t.lamps.senseDue = 200 ∧
    t.lamps.sampleNo = s.lamps.sampleNo ∧
    (∀ i, t.line i = ⟨.input, .activeLow, .none, 0, .latch, false, none, (s.line i).pin, some 0⟩) ∧
    t.panel.debounce = 50 ∧ t.panel.lampTest = false ∧
    t.reports = ⟨[], 0, 0, 0xFF⟩)

/-- The first record of a session is the one STARTED record of start-up, with the cause of the reset
and the straps' station number, stamped 0 and 0, 40 µs after the reset; a PASS-ONLY controller makes
none (R184, R160). That the row STARTED_RECORD_QUEUED moves the clock to that moment, and that it
changes nothing where no such record is due, as after the first, is the model's choice (assumption
log 5). -/
def Obligations.StartUpQueuesOneStartedRecord : Prop :=
  ∀ (source : ResetSource) (straps : BitVec 6) (s : State),
    (∀ low, source = .resetPin low → 10 ≤ low) → ∃ t,
    exec (.hardwareReset source straps) s = .next t ∧
    (straps = 0 ∨ straps = 63 → exec .startedRecordQueued t = .next t) ∧
    (straps ≠ 0 ∧ straps ≠ 63 → ∃ u v, exec .startedRecordQueued t = .next u ∧
      u = { t with clock := 40, startDue := none, reports := u.reports } ∧
      u.reports = ⟨[⟨.started (match source with
          | .resetPin _ => .resetPin
          | .detector => .powerUp
          | .resetPinAtPowerUp => .powerUp) (straps.zeroExtend 8), ⟨0, 0⟩⟩], 0, 0, 0xFF⟩ ∧
      exec .grant u = .next v ∧ exec .startedRecordQueued v = .next v)

/-! ### The Loop Port -/

/-- BYTE_RECEIVED takes a character of a start bit, eight data bits, least significant first, and a
stop bit, whatever the stop bit's level, in ten bit times, in which each of the controller's own
events is taken when it comes due, up to 64 events and moments; the byte is taken at its end by the
table of R155, and what the receiver has then judged is a frame error or the arrival of a frame
(R152, R155, R157). A start bit within 30 bit times of the end of the character before drops the gap
timer, which starts again at the character's end; after a longer gap the frame is TRUNCATED first
(R156). That the high level carries a data bit of 1 is the model's choice (assumption log 30). A
start bit exactly at the 30th bit time is still in time: the model's choice (assumption log 8). That
the row begins at the start bit, that other commands keep out of the ten bit times, and the bound of
64, are the model's choice too (assumption log 4), and so is that an own event that comes due at the
very moment at which the character ends is taken after the byte (assumption log 6). -/
def Obligations.ReceiverDelineatesFrames : Prop :=
  ∀ (c : Character) (b : Byte) (s : State), NoGrantDue s →
    Carries c b →
    (∀ stop, exec (.byteReceived c) s = exec (.byteReceived { c with stop := stop }) s) ∧
    (∀ g, (s.port.receiver = .length g ∨ ∃ n got, s.port.receiver = .collecting n got g) →
      g < s.clock →
      ∃ t, exec .truncated s = .next t ∧ exec (.byteReceived c) s = exec (.byteReceived c) t) ∧
    ((∀ g, (s.port.receiver = .length g ∨ ∃ n got, s.port.receiver = .collecting n got g) →
        s.clock ≤ g) → ∃ (r : Receiver) (m v : State) (n : Nat),
      (s.port.receiver = .hunting → r = .hunting) ∧
      (∀ g, s.port.receiver = .length g → r = .length (s.clock + 40)) ∧
      (∀ n got g, s.port.receiver = .collecting n got g →
        r = .collecting n got (s.clock + 40)) ∧
      OwnRun n { s with port := { s.port with receiver := r } } m ∧ n ≤ 64 ∧
      (v = m ∨ (n = 64 ∧ exec .grant { m with clock := s.clock + 10 } = .next v)) ∧
      v.clock = s.clock + 10 ∧
      NoGrantDue v ∧ v.port.receiver = r ∧
      (QuietUntil (s.clock + 10) s →
        v = { s with clock := s.clock + 10, port := { s.port with receiver := r } }) ∧
      (r = .hunting → exec (.byteReceived c) s = .next
        (if b = 0xA9 then { v with port := { v.port with receiver := .length (v.clock + 30) } }
          else v)) ∧
      (∀ g, r = .length g →
        (3 ≤ b.toNat ∧ b.toNat ≤ 120 → exec (.byteReceived c) s = .next
          { v with port := { v.port with
              receiver := .collecting (b.toNat + 2) [b] (v.clock + 30) } }) ∧
        (b.toNat < 3 ∨ 120 < b.toNat → exec (.byteReceived c) s = exec .badLength v)) ∧
      (∀ n got g, r = .collecting n got g →
        (1 < n → exec (.byteReceived c) s = .next
          { v with port := { v.port with
              receiver := .collecting (n - 1) (got ++ [b]) (v.clock + 30) } }) ∧
        (∀ (f : Frame) (hi : Byte), n = 1 → got = f.checked ++ [hi] →
          (crcOf f.checked = hi ++ b →
            exec (.byteReceived c) s = exec (.forwardedFrame f.kind f.dest f.src f.body) v) ∧
          (crcOf f.checked ≠ hi ++ b → exec (.byteReceived c) s = exec .badCrc v))))

/-- A frame's characters on the line, back to back, received one after another by a hunting receiver
while no own event comes due, come to the arrival of that frame at the end of its last stop bit,
whatever the levels of the stop bits: the characters carry the bytes of R153, with the CRC of R154
(R152 to R157). That the high level carries a data bit of 1 is the model's choice (assumption log
30). -/
def Obligations.ReceivingAFramesBytesIsItsArrival : Prop :=
  ∀ (f : Frame) (line : List Character) (s : State), s.port.receiver = .hunting →
    f.body.length ≤ 117 → NoGrantDue s → List.Forall₂ Carries line f.sentAs →
    QuietUntil (s.clock + 10 * f.sentAs.length) s →
    execAll (line.map .byteReceived) s =
      exec (.forwardedFrame f.kind f.dest f.src f.body)
        { s with clock := s.clock + 10 * f.sentAs.length }

/-- A frame error leaves the receiver HUNTING and, at an ASSIGNED controller, counts in the frame
error total and the bad run, whose eighth makes FRAME_ERRORS occur; a PASS-ONLY controller counts
nothing. TRUNCATED is taken at the gap timer's moment, and only inside a frame (R155 to R158, R160).
That BAD_LENGTH and BAD_CRC, as rows, are counted in every receiver state, HUNTING included, is the
model's choice (assumption log 10); that TRUNCATED changes nothing in HUNTING and moves the clock to
the gap timer's moment is too (assumption log 5). -/
def Obligations.FrameErrorsAreCounted : Prop :=
  ∀ (i : Instr) (s : State), i = .badLength ∨ i = .badCrc → NoGrantDue s →
    (s.port.station.isSome → ∃ t, exec i s = .next t ∧
      t = { s with port := t.port, reports := t.reports } ∧
      t.port = { s.port with
        receiver := .hunting
        frameErrors := if s.port.frameErrors < 65535 then s.port.frameErrors + 1
          else s.port.frameErrors
        badRun := if s.port.badRun < 8 then s.port.badRun + 1 else s.port.badRun } ∧
      t.reports = if s.port.badRun = 7 then s.reports.caused s.stamp .frameErrors
        else s.reports) ∧
    (s.port.station = none →
      exec i s = .next { s with port := { s.port with receiver := .hunting } }) ∧
    (s.port.receiver = .hunting → exec .truncated s = .next s) ∧
    (∀ g, (s.port.receiver = .length g ∨ ∃ n got, s.port.receiver = .collecting n got g) →
      ∃ t, exec .truncated s = .next t ∧ exec i { s with clock := max s.clock g } = .next t)

/-- A good frame that no block acts on is stripped and counted RETURNED, forwarded and counted
FOREIGN, or forwarded, by the first row of R162 that applies (R162 to R165). -/
def Obligations.ForwardingDecision : Prop :=
  ∀ (kind dest src n : Byte) (body : List Byte) (s : State), s.port.station = some n →
    NoGrantDue s →
    (src = n → exec (.forwardedFrame kind dest src body) s = .next
      { s with port := { s.port with
          receiver := .hunting, badRun := 0
          returned := if s.port.returned < 255 then s.port.returned + 1 else s.port.returned } }) ∧
    (src ≠ n → src ≠ 63 → (kind = 1 ∨ kind = 2 ∨ kind = 3 ∨ kind = 4) →
      exec (.forwardedFrame kind dest src body) s = .next (State.passedOn
        { s with port := { s.port with
            foreign := if s.port.foreign < 255 then s.port.foreign + 1 else s.port.foreign } }
        ⟨kind, dest, src, body⟩)) ∧
    (src ≠ n → src = 63 → kind = 4 → dest ≠ n → dest ≠ 0 →
      exec (.forwardedFrame kind dest src body) s = .next (s.passedOn ⟨kind, dest, src, body⟩)) ∧
    (src ≠ n → kind ≠ 1 → kind ≠ 2 → kind ≠ 3 → kind ≠ 4 →
      exec (.forwardedFrame kind dest src body) s = .next (s.passedOn ⟨kind, dest, src, body⟩))

/-- A PASS-ONLY controller only repeats: every good frame is placed in the through FIFO unchanged,
or discarded from a full one, and nothing else comes of it (R160). -/
def Obligations.PassOnlyRepeatsEveryFrame : Prop :=
  ∀ (i : Instr) (f : Frame) (s : State), s.port.station = none → frameOf i = some f →
    NoGrantDue s →
    exec i s = .next { s with port := { s.port with
      receiver := .hunting
      fifo := if s.port.fifo.length < 4 then s.port.fifo ++ [f] else s.port.fifo } }

/-- A grant chooses one frame by the first case of R166 that applies and begins its transmission;
the records an EVENTS frame takes leave the queue and stand in its body as R200 lays them out. The
transmitter is free at the moment the last stop bit of its frame ends; LOOP OUT carries the
characters of the frame in transmission, the bytes of R153 with the CRC of R154, back to back, and
the high level while nothing is sent (R152 to R154, R166, R167, R189), the high level carrying a
data bit of 1 by the model's choice (assumption log 30). Once granted no grant is due, and every
command but GRANT is taken as if the grant that is due had been made before it, so each order of
R169's table comes out as that table says; that this is so, and that GRANT with nothing to send or
with a busy transmitter changes nothing, is the model's reading (assumption log 13). That
TRANSMISSION_END with nothing in transmission changes nothing and moves the clock to its moment is
the model's choice (assumption log 5). -/
def Obligations.GrantChoosesByTheCases : Prop :=
  ∀ s : State,
    (∃ t, exec .grant s = .next t ∧ NoGrantDue t ∧ ∀ c, exec c s = exec c t) ∧
    (s.port.sending.isSome → exec .grant s = .next s) ∧
    (s.port.sending = none → ∀ waits : Bool,
      (waits = true ↔ s.port.station.isSome ∧
        (s.commands.replies ≠ [] ∨ s.reports.queue ≠ [])) →
      (∀ f rest, s.port.fifo = f :: rest → (s.port.localWait < 8 ∨ waits = false) →
        exec .grant s = .next { s with port := { s.port with
          fifo := rest
          sending := some (f, s.clock + 10 * f.sentAs.length)
          localWait := if waits then s.port.localWait + 1 else s.port.localWait } }) ∧
      (waits = true → (s.port.fifo = [] ∨ 8 ≤ s.port.localWait) →
        (∀ f rest, s.commands.replies = f :: rest → exec .grant s = .next { s with
          port := { s.port with
            sending := some (f, s.clock + 10 * f.sentAs.length), localWait := 0 }
          commands := { s.commands with replies := rest } }) ∧
        (s.commands.replies = [] → ∃ f, exec .grant s = .next { s with
            port := { s.port with
              sending := some (f, s.clock + 10 * f.sentAs.length), localWait := 0 }
            reports := { s.reports with queue := s.reports.queue.drop 6 } } ∧
          f.kind = 0x06 ∧ f.dest = 63 ∧ some f.src = s.port.station ∧
          f.body.length = 2 + 10 * min 6 s.reports.queue.length ∧
          field8 f.body 0 = s.reports.lost % 256 ∧
          field8 f.body 1 = min 6 s.reports.queue.length ∧
          ∀ k r, k < 6 → s.reports.queue[k]? = some r → RecordAt f.body (2 + 10 * k) r)) ∧
      (waits = false → s.port.fifo = [] → exec .grant s = .next s)) ∧
    (s.port.sending = none → NoGrantDue s → exec .transmissionEnd s = .next s) ∧
    (∀ f e, s.port.sending = some (f, e) → exec .transmissionEnd s = .next
      { s with clock := max s.clock e, port := { s.port with sending := none } }) ∧
    (s.port.sending = none → s.loopOut = .high) ∧
    (∀ f e, s.port.sending = some (f, e) → e ≤ s.clock → s.loopOut = .high) ∧
    (∀ f e (k j : Nat) (b : Byte), s.port.sending = some (f, e) → f.sentAs[k]? = some b → j < 10 →
      s.clock + 10 * f.sentAs.length = e + 10 * k + j →
      s.loopOut = if j = 0 then .low else if j = 9 then .high
        else if b.getLsbD (j - 1) then .high else .low)

/-! ### Taking commands -/

/-- The checks that come before a command's own: a COMMAND body of fewer than two bytes is
discarded, with no change but what the arrival of any good frame makes, a broadcast one being
forwarded; a code that names no command is answered UNKNOWN_COMMAND, whatever follows it; parameters
longer or shorter than R200 gives the command are answered BAD_LENGTH; and a refused command changes
nothing (R172, R175, checks 1 and 2). -/
def Obligations.ChecksBeforeTheCommandsOwn : Prop :=
  (∀ (n : Byte) (body : List Byte) (s : State), AssignedAs s n → NoGrantDue s → body.length < 2 →
    exec (.commandWithoutCode n 63 body) s = .next
      { s with port := { s.port with receiver := .hunting, badRun := 0 } } ∧
    exec (.commandWithoutCode 0 63 body) s = .next (s.passedOn ⟨0x04, 0, 63, body⟩)) ∧
  (∀ (h : CommandHead) (code : Byte) (params : List Byte) (s : State), Addressed s h →
    (∀ r ∈ commandTable, r.code ≠ code) →
    ∃ t, exec (.unknownCommand h code params) s = .next t ∧
      AnsweredOnly s t h code .unknownCommand []) ∧
  (∀ r ∈ commandTable, ∀ (h : CommandHead) (params : List Byte) (s : State), Addressed s h →
    params.length ≠ r.length →
    ∃ t, exec (r.row h params) s = .next t ∧ AnsweredOnly s t h r.code .badLength [])

/-- An addressed command that finds no reply slot free is dropped, whatever it is: not executed, not
answered, counted, and COMMAND_OVERRUN occurs (R174). -/
def Obligations.CommandWithNoSlotIsDropped : Prop :=
  ∀ (h : CommandHead) (code : Byte) (params : List Byte) (s : State), AssignedAs s h.dest →
    NoGrantDue s → h.src = 63 → 4 ≤ s.commands.replies.length + s.commands.reserved →
    ∀ i, (i = .unknownCommand h code params ∨
        ∃ r ∈ commandTable, i = r.row h params) → exec i s = .next
      { s with
        port := { s.port with receiver := .hunting, badRun := 0 }
        commands := { s.commands with
          dropped := if s.commands.dropped < 255 then s.commands.dropped + 1
            else s.commands.dropped }
        reports := s.reports.caused s.stamp .commandOverrun }

/-- A command that is not for this station to execute has no effect here, whether its code names a
command or none: one for another station and a broadcast one that is not broadcast-allowed are
forwarded, one from another source than the loop head is forwarded and counted FOREIGN, one under
this station's own number is stripped and counted RETURNED (R162, R164, R172, R176). -/
def Obligations.CommandsNotForThisStationPassOn : Prop :=
  ∀ (i : Instr) (h : CommandHead) (n code : Byte) (params : List Byte) (allowed : Bool) (s : State),
    (i = .unknownCommand h code params ∧ (∀ r ∈ commandTable, r.code ≠ code) ∧ allowed = false) ∨
      (∃ r ∈ commandTable, i = r.row h params ∧ code = r.code ∧ allowed = r.broadcast) →
    AssignedAs s n → NoGrantDue s →
    (h.src = 63 → h.dest ≠ n → h.dest ≠ 0 ∨ allowed = false → exec i s = .next
      (s.passedOn ⟨0x04, h.dest, 63, h.tag :: code :: params⟩)) ∧
    (h.src ≠ 63 → h.src ≠ n → exec i s = .next (State.passedOn
      { s with port := { s.port with
          foreign := if s.port.foreign < 255 then s.port.foreign + 1 else s.port.foreign } }
      ⟨0x04, h.dest, h.src, h.tag :: code :: params⟩)) ∧
    (h.src = n → exec i s = .next
      { s with port := { s.port with
          receiver := .hunting, badRun := 0
          returned := if s.port.returned < 255 then s.port.returned + 1 else s.port.returned } })

/-- A broadcast-allowed command received by broadcast is forwarded, and does what the same command
addressed to the station does to the state its forwarding leaves, whatever the reply queue holds,
but makes no reply and leaves the reply queue alone (RESTART empties it); with a wrong length it is
only forwarded (R176, R181). -/
def Obligations.BroadcastActsAsTheAddressedCommand : Prop :=
  ∀ r ∈ commandTable, r.broadcast = true → ∀ (n tag : Byte) (params : List Byte) (s u : State),
    AssignedAs s n → NoGrantDue s → u = s.passedOn ⟨0x04, 0, 63, tag :: r.code :: params⟩ →
    (params.length ≠ r.length → exec (r.row ⟨0, 63, tag⟩ params) s = .next u) ∧
    (params.length = r.length → ∃ a b,
      exec (r.row ⟨n, 63, tag⟩ params)
        { s with
          commands := ⟨[], 0, 0⟩, reports := u.reports
          port := { s.port with forwardDrops := u.port.forwardDrops } } = .next a ∧
      exec (r.row ⟨0, 63, tag⟩ params) s = .next b ∧
      b = { a with
        port := { a.port with fifo := u.port.fifo }
        commands := if r.code = 0x03 then ⟨[], 0, 0⟩ else s.commands })

/-! ### Commands and Replies, The Panel Loop, Loop Time: the commands -/

/-- STATUS answers a snapshot of the part and changes nothing; the snapshot is taken after the
arrival of its own frame, so the bad run it shows is 0 (R180; R200, 11.4.2; R163). -/
def Obligations.StatusReportsTheState : Prop :=
  ∀ (h : CommandHead) (s : State), Addressed s h → ∃ t d,
    exec (.status h []) s = .next t ∧ AnsweredOnly s t h 0x01 .ok d ∧ d.length = 41 ∧
    d[0]? = some h.dest ∧ field8 d 1 = s.port.straps.toNat ∧
    field8 d 2 = s.supervisor.state.code ∧ field8 d 3 = s.supervisor.misses % 256 ∧
    field8 d 4 = s.supervisor.skews % 256 ∧ field16 d 5 = s.supervisor.cycle % 65536 ∧
    d[7]? = some s.reports.latched ∧ d[8]? = some s.reports.mask ∧
    field8 d 9 = s.reports.lost % 256 ∧ field8 d 10 = s.reports.queue.length % 256 ∧
    field8 d 11 = s.commands.dropped % 256 ∧ field8 d 12 = s.commands.replies.length ∧
    field8 d 13 = s.commands.reserved ∧ field16 d 14 = s.port.frameErrors % 65536 ∧
    field8 d 16 = 0 ∧ field8 d 17 = s.port.returned % 256 ∧ field8 d 18 = s.port.foreign % 256 ∧
    field16 d 19 = s.port.forwardDrops % 65536 ∧ field16 d 21 = s.unmapped % 65536 ∧
    field16 d 23 = s.points.length % 65536 ∧ field8 d 25 = s.outstations.length % 256 ∧
    field16 d 26 = s.alarms.unack % 65536 ∧ field16 d 28 = s.alarms.ringback % 65536 ∧
    field16 d 30 = s.alarms.hornCount % 65536 ∧ field8 d 32 = s.alarms.horn.code ∧
    field8 d 33 = (if s.lamps.holdEnds.isSome then 1 else 0) ∧
    (∀ e, s.lamps.holdEnds = some e → field16 d 34 = (e - s.now + 999) / 1000 % 65536) ∧
    (s.lamps.holdEnds = none → field16 d 34 = 0) ∧
    (s.lamps.sweep = none → field8 d 36 = 0 ∧ field8 d 37 = 0 ∧ field8 d 38 = 0) ∧
    (∀ w, s.lamps.sweep = some w → field8 d 36 = (if w.run = .paused then 2 else 1) ∧
      field8 d 37 = w.bank % 256 ∧ field8 d 38 = w.step % 256) ∧
    field16 d 39 = s.lamps.channels.toList.countP fun ch => ch.fault.isSome

/-- SET STATION changes the station number from 1 to 62 and answers under the old one, and refuses
every other number with BAD_PARAM (R161, R179). -/
def Obligations.SetStationAnswersUnderTheOldNumber : Prop :=
  ∀ (h : CommandHead) (x : Byte) (s : State), Addressed s h → ∃ t,
    exec (.setStation h [x]) s = .next t ∧
    (1 ≤ x.toNat ∧ x.toNat ≤ 62 → t = { s with
        port := { s.port with receiver := .hunting, badRun := 0, station := some x }
        commands := t.commands } ∧
      OneReply s t h 0x02 .ok []) ∧
    (x.toNat = 0 ∨ 62 < x.toNat → AnsweredOnly s t h 0x02 .badParam [])

/-- RESTART keeps the configuration and drops the rest, block by block: the queues emptied but for
its own reply and the one STARTED record, the counts 0, the points fresh, supervision NO_SYNC, the
generators realigned, overrides, HOLD, sweep and faults gone, every INPUT line settling (R181, and
the RESTART rule of each block). That a STARTED record of start-up still to be queued stays to be
queued is the model's choice (assumption log 23), and so is that the model's own sample number is
kept (assumption log 7). -/
def Obligations.RestartKeepsTheConfigurationAlone : Prop :=
  ∀ (h : CommandHead) (s : State), Addressed s h → ∃ t,
    exec (.restart h []) s = .next t ∧
    t.clock = s.clock ∧ t.startDue = s.startDue ∧ t.pending = s.pending ∧
    t.port = { s.port with
      receiver := .hunting, localWait := 0, frameErrors := 0, badRun := 0, returned := 0
      foreign := 0, forwardDrops := 0 } ∧
    t.commands = ⟨[⟨0x05, 63, h.dest, [h.tag, 0x03, 0]⟩], 0, 0⟩ ∧
    t.reports = ⟨[⟨.started .command h.dest, s.stamp⟩], 0, 0, s.reports.mask⟩ ∧
    t.supervisor = { s.supervisor with
      state := .noSync, reference := none, misses := 0, skews := 0 } ∧
    (∀ c, t.generators.get c = realigned s.now (s.generators.get c)) ∧
    t.points = s.points.map (fun e => { e with
      raw := none, decoded := none, band := .normal, itemInvalid := false, sensorFault := false
      travel := 0, alarm := if e.priority = 0 then none else some ⟨.normal, none, 0, none⟩ }) ∧
    t.outstations = s.outstations.map (fun o => { o with
      comms := .unknown, silence := 0, stale := false }) ∧
    (∀ (g : Nat) (hg : g < 16), t.groups[g] = ⟨s.groups[g].firstUp, none⟩) ∧
    t.unmapped = 0 ∧ t.staleLimit = s.staleLimit ∧
    t.alarms = { s.alarms with unack := 0, ringback := 0, hornCount := 0, horn := .off } ∧
    (∀ (c : Nat) (hc : c < 256), t.lamps.channels[c].kept =
      ⟨(t.points.find? fun e => e.firstLamp ≤ c ∧ c < e.firstLamp + e.span).map (·.key),
        none, .dark, .none, none, .notYet, 0, none⟩) ∧
    LampsSettled t ∧ t.lamps.holdEnds = none ∧ t.lamps.sweep = none ∧
    t.lamps.senseDue = s.lamps.senseDue ∧ t.lamps.sampleNo = s.lamps.sampleNo ∧
    (∀ i, t.line i = if (s.line i).direction = .input
      then { s.line i with level := none, timer := some s.now } else s.line i) ∧
    t.panel.debounce = s.panel.debounce ∧ t.panel.lampTest = false

/-- SET TIMING sets the four supervision parameters and zeroes both counts; a window reference that
is present is kept, or advanced by the new period no further than the late bound needs to lie after
the command. A period or window out of range is BAD_PARAM (R124). -/
def Obligations.SetTimingKeepsTheLateBoundAhead : Prop :=
  ∀ (h : CommandHead) (b : List Byte) (s : State), Addressed s h → b.length = 6 →
    ∀ p w, p = field16 b 0 → w = field16 b 2 → ∃ t, exec (.setTiming h b) s = .next t ∧
    (p < 100 ∨ 5000 < p ∨ p % 10 ≠ 0 ∨ w < 10 ∨ p < 2 * w →
      AnsweredOnly s t h 0x10 .badParam []) ∧
    (100 ≤ p ∧ p ≤ 5000 ∧ p % 10 = 0 ∧ 10 ≤ w ∧ 2 * w ≤ p →
      t = { s with port := t.port, commands := t.commands, supervisor := t.supervisor } ∧
      Heard s t ∧ OneReply s t h 0x10 .ok [] ∧
      t.supervisor = { s.supervisor with
        period := p, window := w, missLimit := field8 b 4, skewLimit := field8 b 5
        misses := 0, skews := 0, reference := t.supervisor.reference } ∧
      (s.supervisor.reference = none → t.supervisor.reference = none) ∧
      (∀ r, s.supervisor.reference = some r → ∃ k,
        t.supervisor.reference = some (r + k * p) ∧ s.now < r + k * p + p + w ∧
        (k ≠ 0 → r + (k - 1) * p + p + w ≤ s.now)))

/-- RESYNC returns supervision to NO_SYNC, realigns every cadence generator and, where the state was
LOST, applies quality return to every point (R125, R57, R133). -/
def Obligations.ResyncRealignsAndRecovers : Prop :=
  ∀ (h : CommandHead) (s : State), Addressed s h → KeysRise s → ∃ t,
    exec (.resync h []) s = .next t ∧
    t = { s with
      port := t.port, commands := t.commands, supervisor := t.supervisor
      generators := t.generators, points := t.points, alarms := t.alarms, groups := t.groups
      reports := t.reports, lamps := t.lamps } ∧
    Heard s t ∧ OneReply s t h 0x11 .ok [] ∧
    t.supervisor = { s.supervisor with
      state := .noSync, reference := none, misses := 0, skews := 0 } ∧
    (∀ c, t.generators.get c = realigned s.now (s.generators.get c)) ∧
    (s.supervisor.state = .lost →
      Returned s { s with supervisor := t.supervisor } t fun _ => true) ∧
    (s.supervisor.state ≠ .lost → t.points = s.points ∧ t.alarms = s.alarms ∧
      t.groups = s.groups ∧ t.reports = s.reports) ∧
    OnlyRedriven s t

/-- SET CADENCE acts on its generator by the run state it finds and the run request it carries:
times clamped into 1..250, a pending reload while it runs or stops, the times in force at once while
it is STOPPED. A generator or run request that is none is BAD_PARAM (R129, R130). -/
def Obligations.SetCadenceActsByTheRunState : Prop :=
  ∀ (h : CommandHead) (b : List Byte) (s : State), Addressed s h → b.length = 4 →
    ∀ i, (i = .setCadenceRun h b ∨ i = .setCadenceStop h b) → ∃ t, exec i s = .next t ∧
    (4 < field8 b 0 ∨ field8 b 3 = 0 ∨ 2 < field8 b 3 → AnsweredOnly s t h 0x12 .badParam []) ∧
    (∀ c times g, cadenceCode c = field8 b 0 → g = s.generators.get c →
      times = (⟨max 1 (min 250 (field8 b 1)), max 1 (min 250 (field8 b 2))⟩ : CadenceTimes) →
      field8 b 3 = 1 ∨ field8 b 3 = 2 →
      t = { s with port := t.port, commands := t.commands, generators := t.generators } ∧
      Heard s t ∧ OneReply s t h 0x12 .ok [] ∧
      (∀ d, d ≠ c → t.generators.get d = s.generators.get d) ∧
      (g.run ≠ .stopped → t.generators.get c =
        { g with reload := some times, run := if field8 b 3 = 1 then .running else .stopping }) ∧
      (g.run = .stopped → field8 b 3 = 1 → t.generators.get c =
        ⟨times, none, .running, some (.on, s.now + 10 * times.on)⟩) ∧
      (g.run = .stopped → field8 b 3 = 2 → t.generators.get c =
        { g with times := times, reload := none }))

/-! ### The Point Table -/

/-- POINT LOAD is refused with the code of the first of its six checks that fails, and nothing
changes (R6 to R11). -/
def Obligations.PointLoadIsRefusedByTheFirstCheckThatFails : Prop :=
  ∀ (h : CommandHead) (b : List Byte) (s : State), Addressed s h →
    (∀ e ∈ s.points, 1 ≤ e.span) → b.length = 27 → ¬ Loadable s b → ∃ t r, exec (.pointLoad h b) s = .next t ∧
    AnsweredOnly s t h 0x20 r [] ∧
    (BadFields b → r = .badParam) ∧
    (¬ BadFields b → 256 < field8 b 4 + field8 b 5 → r = .lampRange) ∧
    (¬ BadFields b → field8 b 4 + field8 b 5 ≤ 256 → BadAnalogue b → r = .badParam) ∧
    (¬ BadFields b → field8 b 4 + field8 b 5 ≤ 256 → ¬ BadAnalogue b → LampTaken s b →
      r = .lampOverlap) ∧
    (¬ BadFields b → field8 b 4 + field8 b 5 ≤ 256 → ¬ BadAnalogue b → ¬ LampTaken s b →
      NoPlace s b → r = .tableFull) ∧
    (¬ BadFields b → field8 b 4 + field8 b 5 ≤ 256 → ¬ BadAnalogue b → ¬ LampTaken s b →
      ¬ NoPlace s b → NoOutstation s b → r = .outstationFull)

/-- An accepted POINT LOAD of a key not held inserts a fresh entry of the block in key order, counts
it at its outstation or creates the outstation's entry, and binds its lamps; the reply gives the
number of entries (R6, R12, R20, R5). -/
def Obligations.PointLoadInsertsANewKey : Prop :=
  ∀ (h : CommandHead) (b : List Byte) (s : State), Addressed s h → TablesInOrder s →
    Loadable s b → s.point (blockKey b) = none → ∃ t e, exec (.pointLoad h b) s = .next t ∧
    t = { s with
      port := t.port, commands := t.commands, points := t.points, outstations := t.outstations
      lamps := t.lamps } ∧
    Heard s t ∧ OneReply s t h 0x20 .ok (bytes16 (s.points.length + 1)) ∧
    LoadedFrom e b ∧
    t.points = s.points.filter (fun x => x.key.lt e.key) ++ e ::
      s.points.filter (fun x => !x.key.lt e.key) ∧
    (∀ n o, s.outstation n = some o → t.outstation n =
      some (if n = e.key.outstation then { o with points := o.points + 1 } else o)) ∧
    (∀ n, s.outstation n = none → t.outstation n =
      if n = e.key.outstation then some ⟨n, 1, .unknown, 0, false⟩ else none) ∧
    (t.outstations.Pairwise fun a b => a.number < b.number) ∧
    t.lamps = { s.lamps with channels := t.lamps.channels } ∧ LampsSettled t ∧
    ∀ (c : Nat) (hc : c < 256), t.lamps.channels[c].kept =
      { s.lamps.channels[c].kept with
        binding := if e.firstLamp ≤ c ∧ c < e.firstLamp + e.span then some e.key
          else s.lamps.channels[c].binding }

/-- An accepted POINT LOAD of a key held retires the old entry and puts a fresh entry of the block
in its place; the outstations stay as they are, and the old lamps it does not keep become unbound
(R6, R13, R14, R83). -/
def Obligations.PointLoadReplacesAHeldKey : Prop :=
  ∀ (h : CommandHead) (b : List Byte) (old : PointEntry) (s : State), Addressed s h →
    TablesInOrder s → Loadable s b → s.point (blockKey b) = some old → ∃ t e,
    exec (.pointLoad h b) s = .next t ∧
    t = { s with
      port := t.port, commands := t.commands, points := t.points, alarms := t.alarms
      groups := t.groups, reports := t.reports, lamps := t.lamps } ∧
    Heard s t ∧ OneReply s t h 0x20 .ok (bytes16 s.points.length) ∧
    LoadedFrom e b ∧ t.points = s.points.map (fun x => if x.key = e.key then e else x) ∧
    Retired s t old ∧
    t.lamps = { s.lamps with channels := t.lamps.channels } ∧ LampsSettled t ∧
    ∀ (c : Nat) (hc : c < 256), t.lamps.channels[c].kept =
      { s.lamps.channels[c].kept with
        binding := if e.firstLamp ≤ c ∧ c < e.firstLamp + e.span then some e.key
          else if old.firstLamp ≤ c ∧ c < old.firstLamp + old.span then none
          else s.lamps.channels[c].binding }

/-- POINT DROP of a held key retires the entry and removes it, with its bindings and its part in its
outstation's count; a key not held is answered NOT_FOUND (R13, R16, R20, R83). -/
def Obligations.PointDropRemovesTheEntry : Prop :=
  ∀ (h : CommandHead) (b : List Byte) (s : State), Addressed s h → TablesInOrder s →
    b.length = 3 → ∃ t, exec (.pointDrop h b) s = .next t ∧
    (s.point (blockKey b) = none → AnsweredOnly s t h 0x21 .notFound []) ∧
    (∀ e, s.point (blockKey b) = some e →
      t = { s with
        port := t.port, commands := t.commands, points := t.points
        outstations := t.outstations, alarms := t.alarms, groups := t.groups
        reports := t.reports, lamps := t.lamps } ∧
      Heard s t ∧ OneReply s t h 0x21 .ok (bytes16 (s.points.length - 1)) ∧
      t.points = s.points.filter (fun x => x.key ≠ blockKey b) ∧
      t.points.length + 1 = s.points.length ∧ Retired s t e ∧
      (∀ n, t.outstation n = if n ≠ e.key.outstation then s.outstation n
        else (s.outstation n).bind fun o =>
          if o.points ≤ 1 then none else some { o with points := o.points - 1 }) ∧
      t.lamps = { s.lamps with channels := t.lamps.channels } ∧ LampsSettled t ∧
      ∀ (c : Nat) (hc : c < 256), t.lamps.channels[c].kept =
        { s.lamps.channels[c].kept with
          binding := if e.firstLamp ≤ c ∧ c < e.firstLamp + e.span then none
            else s.lamps.channels[c].binding })

/-- POINT READ of a held key answers its configuration as a block that loads the same entry, then
its dynamic fields, the quality derived at the read and whether it is its group's holder, each field
that does not apply to the entry's class or is absent sent as 0; a key not held is answered
NOT_FOUND. Nothing changes (R18; R200, 11.4.1 and 11.4.3). -/
def Obligations.PointReadReportsTheEntry : Prop :=
  ∀ (h : CommandHead) (b : List Byte) (s : State), Addressed s h → b.length = 3 →
    ∃ t, exec (.pointRead h b) s = .next t ∧
    (s.point (blockKey b) = none → AnsweredOnly s t h 0x22 .notFound []) ∧
    (∀ e, s.point (blockKey b) = some e → ∃ d, AnsweredOnly s t h 0x22 .ok d ∧ d.length = 43 ∧
      (∀ block, block.length = 27 → ¬ BadFields block → LoadedFrom e.fresh block →
        ¬ BadFields (d.take 27) ∧ LoadedFrom e.fresh (d.take 27)) ∧
      (∀ inv normal, e.cls = .binary inv normal → lowerNibble d 8 = 0 ∧
        ∀ i, 9 ≤ i → i < 27 → field8 d i = 0) ∧
      (∀ lim da, e.cls = .double lim da → upperNibble d 8 = 0 ∧
        ∀ i, 10 ≤ i → i < 27 → field8 d i = 0) ∧
      (e.isAnalogue = true → field8 d 8 = 0 ∧ field8 d 9 = 0) ∧ field8 d 27 < 128 ∧
      (field8 d 27 / 1 % 2 = 1 ↔ e.raw.isSome) ∧ (field8 d 27 / 2 % 2 = 1 ↔ e.decoded.isSome) ∧
      (field8 d 27 / 4 % 2 = 1 ↔ e.itemInvalid = true) ∧
      (field8 d 27 / 8 % 2 = 1 ↔ e.isAnalogue = true ∧ e.sensorFault = true) ∧
      (field8 d 27 / 16 % 2 = 1 ↔ e.alarm.isSome) ∧
      (field8 d 27 / 32 % 2 = 1 ↔ ∃ a, e.alarm = some a ∧ a.raised.isSome) ∧
      (field8 d 27 / 64 % 2 = 1 ↔ ∃ (g : Nat) (hg : g < 16),
        e.group = g + 1 ∧ s.groups[g].holder = some e.key) ∧
      field16 d 28 = e.raw.getD 0 % 65536 ∧
      (∀ one, e.decoded = some (.state one) → field16 d 30 = if one then 1 else 0) ∧
      (∀ p, e.decoded = some (.position p) → field16 d 30 = p.code) ∧
      (∀ f l, e.decoded = some (.level f l) → field16 d 30 = f % 65536 ∧ field8 d 32 = l % 256) ∧
      (e.decoded = none → field16 d 30 = 0) ∧
      ((∀ f l, e.decoded ≠ some (.level f l)) → field8 d 32 = 0) ∧
      field8 d 33 = (if e.isAnalogue = true then e.band.code else 0) ∧
      (∀ lim da, e.cls = .double lim da → field8 d 34 = e.travel % 256) ∧
      ((∀ lim da, e.cls ≠ .double lim da) → field8 d 34 = 0) ∧
      field8 d 35 = (s.quality e).code ∧
      (e.alarm = none → ∀ i, 36 ≤ i → i < 43 → field8 d i = 0) ∧
      (∀ a, e.alarm = some a → field8 d 36 = a.state.code ∧
        (∀ c, a.cause = some c → field8 d 37 = c.code) ∧ (a.cause = none → field8 d 37 = 0) ∧
        d[38]? = some a.generation ∧
        (a.raised = none → field16 d 39 = 0 ∧ field16 d 41 = 0) ∧
        ∀ st, a.raised = some st → field16 d 39 = st.cycle % 65536 ∧
          field16 d 41 = st.offset % 65536))

/-- TABLE CLEAR empties the Point Table and the Outstation Table, makes one TABLE_CLEARED record
with the number removed and no other, zeroes the counts and stops the horn; groups keep their
enables and channels their overrides and faults (R17, R83). -/
def Obligations.TableClearEmptiesTheTables : Prop :=
  ∀ (h : CommandHead) (s : State), Addressed s h → ∃ t, exec (.tableClear h []) s = .next t ∧
    t = { s with
      port := t.port, commands := t.commands, points := [], outstations := []
      groups := t.groups, reports := s.reports.joined s.stamp (.tableCleared s.points.length)
      alarms := { s.alarms with unack := 0, ringback := 0, hornCount := 0, horn := .off }
      lamps := t.lamps } ∧
    Heard s t ∧ OneReply s t h 0x23 .ok (bytes16 s.points.length) ∧
    (∀ (g : Nat) (hg : g < 16), t.groups[g] = ⟨s.groups[g].firstUp, none⟩) ∧
    t.lamps = { s.lamps with channels := t.lamps.channels } ∧ LampsSettled t ∧
    ∀ (c : Nat) (hc : c < 256), t.lamps.channels[c].kept =
      { s.lamps.channels[c].kept with binding := none }

/-- TABLE SCAN answers the lowest held keys not below its start key, up to 16 of them, in ascending
order, with the empty slots 0/0, and the MORE flag; nothing changes (R19; R200, 11.4.4). -/
def Obligations.TableScanListsKeysInOrder : Prop :=
  ∀ (h : CommandHead) (b : List Byte) (s : State), Addressed s h → TablesInOrder s →
    b.length = 3 → ∀ keys, keys = (s.points.map (·.key)).filter (fun k => !k.lt (blockKey b)) →
    ∃ t d, exec (.tableScan h b) s = .next t ∧ AnsweredOnly s t h 0x24 .ok d ∧ d.length = 50 ∧
    field8 d 0 = min 16 keys.length ∧ field8 d 1 = (if 16 < keys.length then 1 else 0) ∧
    ∀ j, j < 16 → (⟨field16 d (2 + 3 * j), field8 d (4 + 3 * j)⟩ : Key) =
      keys.getD j ⟨0, 0⟩

/-- GROUP SET sets a group's first-up enable; switching it off makes the holder absent, switching it
on keeps the holder. A group outside 1..16 or an enable that is neither is BAD_PARAM (R22). -/
def Obligations.GroupSetSetsFirstUp : Prop :=
  ∀ (h : CommandHead) (b : List Byte) (s : State), Addressed s h → b.length = 2 →
    ∃ t, exec (.groupSet h b) s = .next t ∧
    (field8 b 0 = 0 ∨ 16 < field8 b 0 ∨ 1 < field8 b 1 →
      AnsweredOnly s t h 0x25 .badParam []) ∧
    (1 ≤ field8 b 0 ∧ field8 b 0 ≤ 16 ∧ field8 b 1 ≤ 1 →
      t = { s with port := t.port, commands := t.commands, groups := t.groups, lamps := t.lamps } ∧
      Heard s t ∧ OneReply s t h 0x25 .ok [] ∧ OnlyRedriven s t ∧
      ∀ (g : Nat) (hg : g < 16), t.groups[g] =
        if g + 1 = field8 b 0 then
          if field8 b 1 = 1 then ⟨true, s.groups[g].holder⟩ else ⟨false, none⟩
        else s.groups[g])

/-! ### Quality and Outstation Supervision: the commands -/

/-- OUTSTATION READ answers the outstation's entry and the stale limit, or NOT_FOUND for an
outstation with no entry, and changes nothing (R61; R200, 11.4.4). -/
def Obligations.OutstationReadReportsTheEntry : Prop :=
  ∀ (h : CommandHead) (b : List Byte) (s : State), Addressed s h → b.length = 2 →
    ∃ t, exec (.outstationRead h b) s = .next t ∧
    (s.outstation (field16 b 0) = none → AnsweredOnly s t h 0x30 .notFound []) ∧
    (∀ o, s.outstation (field16 b 0) = some o → ∃ d, AnsweredOnly s t h 0x30 .ok d ∧
      d.length = 8 ∧ field16 d 0 = field16 b 0 ∧ field16 d 2 = o.points % 65536 ∧
      field8 d 4 = o.comms.code ∧ field8 d 5 = o.silence % 256 ∧
      field8 d 6 = (if o.stale then 1 else 0) ∧ field8 d 7 = s.staleLimit % 256)

/-- SET STALE LIMIT sets the limit, forgives every outstation its silence, and applies quality
return to the points of the outstations that were stale (R54, R58). -/
def Obligations.SetStaleLimitForgivesEveryOutstation : Prop :=
  ∀ (h : CommandHead) (x : Byte) (s : State), Addressed s h → KeysRise s → ∃ t u,
    exec (.setStaleLimit h [x]) s = .next t ∧
    u = { s with
      staleLimit := x.toNat
      outstations := s.outstations.map fun o => { o with silence := 0, stale := false } } ∧
    t = { u with
      port := t.port, commands := t.commands, points := t.points, alarms := t.alarms
      groups := t.groups, reports := t.reports, lamps := t.lamps } ∧
    Heard s t ∧ OneReply s t h 0x31 .ok [] ∧
    Returned s u t (fun e => s.staleFlag e.key.outstation) ∧ OnlyRedriven s t

/-! ### The Alarm Sequence: the commands -/

/-- ACK POINT goes through its four checks in order and acknowledges the one entry where all pass;
the reply gives the state and generation after the command, also where there is nothing to
acknowledge or the generation is stale (R76, R77). -/
def Obligations.AckPointAcknowledgesTheGenerationItCarries : Prop :=
  ∀ (h : CommandHead) (b : List Byte) (s : State), Addressed s h → KeysRise s → b.length = 4 →
    ∃ t, exec (.ackPoint h b) s = .next t ∧
    (s.point (blockKey b) = none → AnsweredOnly s t h 0x40 .notFound []) ∧
    (∀ e, s.point (blockKey b) = some e →
      (e.alarm = none → AnsweredOnly s t h 0x40 .noAlarm []) ∧
      (∀ a, e.alarm = some a →
        (a.state = .normal ∨ a.state = .acked →
          AnsweredOnly s t h 0x40 .nothingToAck [byteOf a.state.code, a.generation]) ∧
        (a.state = .unack ∨ a.state = .rtnUnack → b[3]? ≠ some a.generation →
          AnsweredOnly s t h 0x40 .staleAck [byteOf a.state.code, a.generation]) ∧
        (a.state = .unack ∨ a.state = .rtnUnack → b[3]? = some a.generation →
          t = { s with
            port := t.port, commands := t.commands, points := t.points, alarms := t.alarms
            groups := t.groups, reports := t.reports, lamps := t.lamps } ∧
          Heard s t ∧ Acknowledged s t (fun x => x.key == e.key) ∧ OnlyRedriven s t ∧
          OneReply s t h 0x40 .ok [if a.state = .unack then 2 else 0, a.generation])))

/-- ACK GROUP and ACK ALL acknowledge every unacknowledged entry of the group, or of the table, and
answer their number; a group outside 1..16 is BAD_PARAM (R77, R79, R80). -/
def Obligations.AckGroupAndAckAllAcknowledgeTheirScope : Prop :=
  ∀ (h : CommandHead) (x : Byte) (s : State), Addressed s h → KeysRise s → ∃ t u,
    exec (.ackGroup h [x]) s = .next t ∧ exec (.ackAll h []) s = .next u ∧
    (x.toNat = 0 ∨ 16 < x.toNat → AnsweredOnly s t h 0x41 .badParam []) ∧
    (1 ≤ x.toNat ∧ x.toNat ≤ 16 →
      t = { s with
        port := t.port, commands := t.commands, points := t.points, alarms := t.alarms
        groups := t.groups, reports := t.reports, lamps := t.lamps } ∧
      Heard s t ∧ Acknowledged s t (fun e => e.group == x.toNat) ∧ OnlyRedriven s t ∧
      OneReply s t h 0x41 .ok
        (bytes16 (s.points.countP fun e => e.group == x.toNat && e.unacknowledged))) ∧
    u = { s with
      port := u.port, commands := u.commands, points := u.points, alarms := u.alarms
      groups := u.groups, reports := u.reports, lamps := u.lamps } ∧
    Heard s u ∧ Acknowledged s u (fun _ => true) ∧ OnlyRedriven s u ∧
    OneReply s u h 0x42 .ok (bytes16 (s.points.countP fun e => e.unacknowledged))

/-- SILENCE silences a sounding horn and nothing else; HORN SET sets the enables, works the horn
count out anew and stops the horn where it is 0, and refuses a value that is neither on nor off (R71
to R73). -/
def Obligations.SilenceAndHornSetActOnTheHorn : Prop :=
  ∀ (h : CommandHead) (b : List Byte) (s : State), Addressed s h → b.length = 3 → ∃ t u,
    exec (.silence h []) s = .next t ∧ exec (.hornSet h b) s = .next u ∧
    t = { s with
      port := t.port, commands := t.commands
      alarms := { s.alarms with
        horn := if s.alarms.horn = .sounding then .silenced else s.alarms.horn } } ∧
    Heard s t ∧ OneReply s t h 0x43 .ok [] ∧
    (1 < field8 b 0 ∨ 1 < field8 b 1 ∨ 1 < field8 b 2 →
      AnsweredOnly s u h 0x44 .badParam []) ∧
    (field8 b 0 ≤ 1 ∧ field8 b 1 ≤ 1 ∧ field8 b 2 ≤ 1 →
      u = { s with port := u.port, commands := u.commands, alarms := u.alarms } ∧
      Heard s u ∧ OneReply s u h 0x44 .ok [] ∧
      u.alarms = { s.alarms with
        enable1 := field8 b 0 = 1, enable2 := field8 b 1 = 1, enable3 := field8 b 2 = 1
        hornCount := s.points.countP fun e => e.alarmState == .unack &&
          ((e.priority == 1 && field8 b 0 == 1) || (e.priority == 2 && field8 b 1 == 1) ||
            (e.priority == 3 && field8 b 2 == 1))
        horn := if u.alarms.hornCount = 0 then .off else s.alarms.horn })

/-! ### Lamp Channels: the commands -/

/-- LAMP OVERRIDE goes through its two checks and sets, or releases, the override of the named run
of channels; every lamp then takes its level by R89 (R94). -/
def Obligations.LampOverrideSetsItsRunOfChannels : Prop :=
  ∀ (h : CommandHead) (b : List Byte) (s : State), Addressed s h → b.length = 4 →
    ∀ first count, first = field8 b 0 → count = field16 b 1 → ∃ t,
    exec (.lampOverride h b) s = .next t ∧
    (count = 0 ∨ 256 < count ∨ 7 < field8 b 3 → AnsweredOnly s t h 0x50 .badParam []) ∧
    (1 ≤ count ∧ count ≤ 256 → field8 b 3 ≤ 7 → 256 < first + count →
      AnsweredOnly s t h 0x50 .lampRange []) ∧
    (∀ l : Option Level, overrideCode l = field8 b 3 → 1 ≤ count → first + count ≤ 256 →
      t = { s with port := t.port, commands := t.commands, lamps := t.lamps } ∧
      Heard s t ∧ OneReply s t h 0x50 .ok [] ∧
      t.lamps = { s.lamps with channels := t.lamps.channels } ∧ LampsSettled t ∧
      ∀ (c : Nat) (hc : c < 256), t.lamps.channels[c].kept =
        { s.lamps.channels[c].kept with
          override := if first ≤ c ∧ c < first + count then l
            else s.lamps.channels[c].override })

/-- LAMP READ answers the records of a bank's 16 channels and the run states of the generators, and
changes nothing; a bank above 15 is BAD_PARAM (R111; R200, 11.4.4). -/
def Obligations.LampReadReportsABank : Prop :=
  ∀ (h : CommandHead) (x : Byte) (s : State), Addressed s h → ∃ t,
    exec (.lampRead h [x]) s = .next t ∧
    (15 < x.toNat → AnsweredOnly s t h 0x51 .badParam []) ∧
    (x.toNat ≤ 15 → ∃ d, AnsweredOnly s t h 0x51 .ok d ∧ d.length = 102 ∧ d[0]? = some x ∧
      (∀ (k c : Nat) (hc : c < 256), k < 16 → c = 16 * x.toNat + k →
        (∀ key, s.lamps.channels[c].binding = some key →
          field16 d (1 + 6 * k) = key.outstation % 65536 ∧ field8 d (3 + 6 * k) = key.index % 256) ∧
        (s.lamps.channels[c].binding = none →
          field16 d (1 + 6 * k) = 0 ∧ field8 d (3 + 6 * k) = 0) ∧
        upperNibble d (4 + 6 * k) = overrideCode s.lamps.channels[c].override ∧
        lowerNibble d (4 + 6 * k) = s.lamps.channels[c].driven.code ∧
        upperNibble d (5 + 6 * k) = s.lamps.channels[c].source.code ∧
        lowerNibble d (5 + 6 * k) = s.lamps.channels[c].sensed.code ∧
        (s.lamps.channels[c].mismatch ≤ 2 →
          upperNibble d (6 + 6 * k) = s.lamps.channels[c].mismatch) ∧
        lowerNibble d (6 + 6 * k) = faultCode s.lamps.channels[c].fault) ∧
      ∀ g, field8 d (97 + cadenceCode g) = (s.generators.get g).run.code)

/-- HOLD ON takes each channel's level of cases 4 to 6 of R89 as its held level for the clamped
limit, renews the limit alone where HOLD is in effect, and is BUSY during a sweep; a mode that is
neither ON nor OFF is BAD_PARAM (R96). -/
def Obligations.HoldOnFreezesThePicture : Prop :=
  ∀ (h : CommandHead) (b : List Byte) (s : State), Addressed s h → b.length = 3 → ∃ t,
    exec (.holdOn h b) s = .next t ∧
    (1 < field8 b 0 → AnsweredOnly s t h 0x52 .badParam []) ∧
    (field8 b 0 = 1 → s.lamps.sweep.isSome → AnsweredOnly s t h 0x52 .busy []) ∧
    (field8 b 0 = 1 → s.lamps.sweep = none →
      t = { s with port := t.port, commands := t.commands, lamps := t.lamps } ∧
      Heard s t ∧ OneReply s t h 0x52 .ok [] ∧
      t.lamps.holdEnds = some (s.now + 1000 * max 10 (min 600 (field16 b 1))) ∧
      (s.lamps.holdEnds.isSome →
        t.lamps = { s.lamps with holdEnds := t.lamps.holdEnds }) ∧
      (s.lamps.holdEnds = none →
        t.lamps = { s.lamps with holdEnds := t.lamps.holdEnds, channels := t.lamps.channels } ∧
        LampsSettled t ∧ ∀ (c : Nat) (hc : c < 256), t.lamps.channels[c].kept =
          { s.lamps.channels[c].kept with
            held := some (s.lowerLevel c s.lamps.channels[c]).1 }))

/-- HOLD OFF and the expiry of HOLD end it with a HOLD_ENDED record of their cause: every held level
is absent and every lamp takes its level by R89; where HOLD is not in effect, the command is
answered OK and nothing else changes (R98). That the row HOLD_EXPIRY moves the clock to the moment
of the expiry, and changes nothing where HOLD is not in effect, is the model's choice (assumption
log 5). -/
def Obligations.HoldEndsByCommandOrExpiry : Prop :=
  ∀ s : State, NoGrantDue s →
    (s.lamps.holdEnds = none → exec .holdExpiry s = .next s) ∧
    (∀ e, s.lamps.holdEnds = some e → ∃ u, exec .holdExpiry s = .next u ∧ HoldEnded s u ∧
      u = { s with
        clock := max s.clock (1000 * e), lamps := u.lamps
        reports := s.reports.joined ({ s with clock := u.clock }).stamp (.holdEnded .expiry) }) ∧
    ∀ (h : CommandHead) (b : List Byte), Addressed s h → b.length = 3 → field8 b 0 = 0 →
      ∃ t, exec (.holdOff h b) s = .next t ∧
      (s.lamps.holdEnds = none → AnsweredOnly s t h 0x52 .ok []) ∧
      (s.lamps.holdEnds.isSome → Heard s t ∧ OneReply s t h 0x52 .ok [] ∧
        HoldEnded s t ∧
        t = { s with
          port := t.port, commands := t.commands, lamps := t.lamps
          reports := s.reports.joined s.stamp (.holdEnded .command) })

/-- PROVE reserves a slot and starts a sweep of its bank at step 0, RUNNING for 200 ms or PAUSED by
lamp test, with no reply now; a bank above 15 is BAD_PARAM, and a sweep or HOLD in effect makes it
BUSY (R105). -/
def Obligations.ProveStartsASweep : Prop :=
  ∀ (h : CommandHead) (x : Byte) (s : State), Addressed s h → ∃ t,
    exec (.prove h [x]) s = .next t ∧
    (15 < x.toNat → AnsweredOnly s t h 0x53 .badParam []) ∧
    (x.toNat ≤ 15 → s.lamps.sweep.isSome ∨ s.lamps.holdEnds.isSome →
      AnsweredOnly s t h 0x53 .busy []) ∧
    (x.toNat ≤ 15 → s.lamps.sweep = none → s.lamps.holdEnds = none →
      t = { s with
        port := t.port, lamps := t.lamps
        commands := { s.commands with reserved := s.commands.reserved + 1 } } ∧
      Heard s t ∧
      t.lamps = { s.lamps with channels := t.lamps.channels, sweep := t.lamps.sweep } ∧
      t.lamps.sweep = some
        { bank := x.toNat, step := 0, tag := h.tag, failedDark := 0, failedOwn := 0
          run := if s.panel.lampTest then .paused else .running (s.now + 200) } ∧
      LampsSettled t ∧
      ∀ (c : Nat) (hc : c < 256), t.lamps.channels[c].kept = s.lamps.channels[c].kept)

/-- The end of a dwell judges the lamps its step tests by the currents sampled, records each fault
newly set, and goes on to the next step with a full dwell; the end of step 16 places the completion
reply in the reserved slot, and a fail set that is not empty makes LAMP_FAULT occur (R106, R107,
R109). That the row DWELL_END moves the clock to the dwell's end, and changes nothing where no sweep
is RUNNING, is the model's choice (assumption log 5). -/
def Obligations.DwellEndJudgesTheStep : Prop :=
  ∀ (currents : BitVec 256) (s : State), NoGrantDue s →
    (s.lamps.sweep = none → exec (.dwellEnd currents) s = .next s) ∧
    (∀ w, s.lamps.sweep = some w → w.run = .paused → exec (.dwellEnd currents) s = .next s) ∧
    (∀ w e w' faults, s.lamps.sweep = some w → w.run = .running e →
      w' = w.kept (currents.extractLsb' (16 * w.bank) 16) →
      faults = s.faultsFound (fun c ch => if c / 16 = w.bank
        then proved w (c % 16) ch (currents.getLsbD c) else (ch, none)) → ∃ t,
      exec (.dwellEnd currents) s = .next t ∧
      t = { s with
        clock := max s.clock (1000 * e), commands := t.commands, lamps := t.lamps
        reports := t.reports } ∧
      (∀ (c : Nat) (hc : c < 256), t.lamps.channels[c].kept =
        if c / 16 = w.bank ∧ (w.step = 0 ∨ w.step = c % 16 + 1)
          then (proved w (c % 16) s.lamps.channels[c] (currents.getLsbD c)).1.kept
          else s.lamps.channels[c].kept) ∧
      LampsSettled t ∧
      ∀ r, r = faults.foldl (fun r f => r.joined t.stamp (.lampFault f.1 f.2)) s.reports →
      (w.step < 16 → t.commands = s.commands ∧ t.reports = r ∧
        t.lamps = { s.lamps with
          channels := t.lamps.channels
          sweep := some { w' with step := w.step + 1, run := .running (t.now + 200) } }) ∧
      (16 ≤ w.step →
        t.lamps = { s.lamps with channels := t.lamps.channels, sweep := none } ∧
        t.commands = { s.commands with
          reserved := s.commands.reserved - 1
          replies := s.commands.replies ++ [⟨0x05, 63, s.port.station.getD 0,
            [w.tag, 0x53, 0] ++ w'.completionData⟩] } ∧
        t.reports = if w'.failedDark ||| w'.failedOwn = 0 then r
          else r.caused t.stamp .lampFault))

/-- CLEAR LAMP FAULTS clears the faults and mismatch runs of one bank or of all, and answers how
many faults it cleared; another bank value is BAD_PARAM (R104). -/
def Obligations.ClearLampFaultsClearsItsBanks : Prop :=
  ∀ (h : CommandHead) (x : Byte) (s : State), Addressed s h → ∃ t,
    exec (.clearLampFaults h [x]) s = .next t ∧
    (15 < x.toNat → x.toNat < 255 → AnsweredOnly s t h 0x54 .badParam []) ∧
    (x.toNat ≤ 15 ∨ x.toNat = 255 →
      t = { s with port := t.port, commands := t.commands, lamps := t.lamps } ∧
      Heard s t ∧
      t.lamps = { s.lamps with channels := t.lamps.channels } ∧
      (∀ (c : Nat) (hc : c < 256), t.lamps.channels[c] =
        if x.toNat = 255 ∨ c / 16 = x.toNat
          then { s.lamps.channels[c] with fault := none, mismatch := 0 }
          else s.lamps.channels[c]) ∧
      OneReply s t h 0x54 .ok (bytes16 ((List.range 256).countP fun c =>
        (x.toNat == 255 || c / 16 == x.toNat) &&
          (s.lamps.channels[c]?).any fun ch => ch.fault.isSome)))

/-! ### Panel Lines: the commands -/

/-- LINE SET stores a line's record, turns its direction with what follows for its level and timer,
lets lamp test follow, and sets the common debounce time, by which the lines whose pin has already
held that long are debounced at once, PL0 first, as their DEBOUNCE_EXPIRY rows do while no grant can
come between them (R137, R138, R147, R148; the order among the lines is the model's choice,
assumption log 12). A field that is none of its values is BAD_PARAM. -/
def Obligations.LineSetStoresTheLine : Prop :=
  ∀ (h : CommandHead) (b : List Byte) (busy : Frame × Nat) (s : State), Addressed s h →
    b.length = 7 → ∃ t, exec (.lineSet h b) s = .next t ∧
    (7 < field8 b 0 ∨ 1 < field8 b 1 ∨ 1 < field8 b 2 ∨ 5 < field8 b 3 ∨ 4 < field8 b 5 ∨
        (field8 b 3 = 2 ∧ ¬ (1 ≤ field8 b 4 ∧ field8 b 4 ≤ 16)) →
      AnsweredOnly s t h 0x60 .badParam []) ∧
    (∀ (i : Fin 8) (dir : Direction) (pol : Polarity) (fn : InputFunction) (src : OutputSource)
        (g : Nat), field8 b 0 = i.val → directionOfCode (field8 b 1) = some dir →
      polarityOfCode (field8 b 2) = some pol → inputFunctionOfCode (field8 b 3) = some fn →
      outputSourceOfCode (field8 b 5) = some src →
      g = (if fn = .ackGroup then field8 b 4 else 0) → (fn = .ackGroup → 1 ≤ g ∧ g ≤ 16) →
      ∃ u v, u = { s with
          port := { s.port with receiver := .hunting, badRun := 0 }
          lamps := u.lamps, panel := u.panel } ∧
        u.panel.debounce = 10 * max 1 (min 25 (field8 b 6)) ∧
        (∀ j, j ≠ i → u.line j = s.line j) ∧
        u.line i = { s.line i with
          direction := dir, polarity := pol, function := fn, group := g, source := src
          level := if (s.line i).direction = dir then (s.line i).level else none
          timer := if (s.line i).direction = dir then (s.line i).timer
            else if dir = .input then some s.now else none } ∧
        LampTestFollows u ∧ LampsFollow s u ∧
        execAll ((allLines.filter fun j =>
          decide (∃ m, (u.line j).timer = some m ∧ m + u.panel.debounce ≤ u.now)).map
            .debounceExpiry) { u with port := { u.port with sending := some busy } } = .next v ∧
        t = { v with
          port := { v.port with sending := s.port.sending }, commands := t.commands } ∧
        v.commands = s.commands ∧ OneReply s t h 0x60 .ok [])

/-- LINE WRITE writes the latches of the lines its mask selects and nothing else; LINE READ answers
direction, pin level and active state of each line and changes nothing. An OUTPUT line drives its
pin to the level its polarity gives for the active state of its source: the latch, the SOUNDING
horn, a latched condition in the report mask, a count of alarms above 0, ATTENTION (R137, R144 to
R146, R149, R197). -/
def Obligations.LineWriteAndLineReadTheLines : Prop :=
  ∀ (h : CommandHead) (m v : Byte) (s : State), Addressed s h → ∃ t u d,
    exec (.lineWrite h [m, v]) s = .next t ∧ exec (.lineRead h []) s = .next u ∧
    t = { s with port := t.port, commands := t.commands, panel := t.panel } ∧
    Heard s t ∧ OneReply s t h 0x61 .ok [] ∧
    t.panel.debounce = s.panel.debounce ∧ t.panel.lampTest = s.panel.lampTest ∧
    (∀ i, t.line i = { s.line i with
      latch := if m.getLsbD i.val then v.getLsbD i.val else (s.line i).latch }) ∧
    AnsweredOnly s u h 0x62 .ok d ∧ d.length = 8 ∧
    ∀ i : Fin 8,
      (field8 d i.val % 2 = 1 ↔ (s.line i).direction = .output) ∧
      (field8 d i.val / 8 % 2 = 1 ↔ Active s (s.line i)) ∧ field8 d i.val < 16 ∧
      ((s.line i).direction = .input → s.drivenPin (s.line i) = none ∧
        ((s.line i).level = none → field8 d i.val / 2 % 4 = 0) ∧
        ((s.line i).level = some .low → field8 d i.val / 2 % 4 = 1) ∧
        ((s.line i).level = some .high → field8 d i.val / 2 % 4 = 2)) ∧
      ((s.line i).direction = .output →
        ((Active s (s.line i) ↔ (s.line i).polarity = .activeHigh) →
          s.drivenPin (s.line i) = some .high ∧ field8 d i.val / 2 % 4 = 2) ∧
        (¬ (Active s (s.line i) ↔ (s.line i).polarity = .activeHigh) →
          s.drivenPin (s.line i) = some .low ∧ field8 d i.val / 2 % 4 = 1))

/-! ### Events and Conditions: the commands -/

/-- CONDITION CLEAR clears the named latches, and the lost count with EVENT_LOSS, and latches again,
in list order, each named condition whose standing cause holds; CONDITION RAISE makes the cause of
each named condition occur, in list order; both answer the latched set. REPORT MASK sets the mask
and makes no record (R190, R192 to R196). -/
def Obligations.ConditionCommandsActOnLatchesAndMask : Prop :=
  ∀ (h : CommandHead) (set : Byte) (s : State), Addressed s h → ∃ t u v,
    exec (.conditionClear h [set]) s = .next t ∧ exec (.conditionRaise h [set]) s = .next u ∧
    exec (.reportMask h [set]) s = .next v ∧
    t = { s with port := t.port, commands := t.commands, reports := t.reports } ∧
    Heard s t ∧ OneReply s t h 0x70 .ok [t.reports.latched] ∧
    t.reports = ([.loopLost, .lampFault, .staleOutstation].filter fun c : Condition =>
        set.getLsbD c.code && (match c with
          | .loopLost => s.supervisor.state == .lost
          | .lampFault => s.lamps.channels.toList.any fun ch => ch.fault.isSome
          | _ => s.outstations.any fun o => o.stale)).foldl
      (fun r c => r.caused s.stamp c)
      { s.reports with
        latched := s.reports.latched &&& ~~~ set
        lost := if set.getLsbD 3 then 0 else s.reports.lost } ∧
    u = { s with port := u.port, commands := u.commands, reports := u.reports } ∧
    Heard s u ∧ OneReply s u h 0x71 .ok [u.reports.latched] ∧
    u.reports = (Condition.all.filter fun c => set.getLsbD c.code).foldl
      (fun r c => r.caused s.stamp c) s.reports ∧
    v = { s with
      port := v.port, commands := v.commands, reports := { s.reports with mask := set } } ∧
    Heard s v ∧ OneReply s v h 0x72 .ok []

/-! ### Markers, telemetry and outstation reports -/

/-- A CYCLE frame of three bytes is an accepted marker: its number is recorded and the stamp starts
again, every outstation's silence is counted, and the supervision state it finds judges it. In
NO_SYNC and LOST it starts supervision; in IN_STEP it is early, and advances the skew count, or in
the window, and realigns the cadences where SYNC is set. A body of another length is only forwarded
(R116 to R119, R122, R123, R126, R133, R52, R53). The stamp of a record made at any moment is the
recorded cycle number and the ms since the last accepted marker, at most 65535 (R126). A marker
taken in IN_STEP after the late bound, which R118 does not know since the late bound would have
expired, is judged as one in the window: the model's choice, which takes due timers after the
commands that wait (assumption log 4). -/
def Obligations.MarkerIsJudgedBySupervision : Prop :=
  (∀ x : State, x.stamp =
    ⟨x.supervisor.cycle, min 65535 (x.clock / 1000 - x.supervisor.stampFrom)⟩) ∧
  ∀ (n dest : Byte) (body : List Byte) (s w : State), AssignedAs s n → NoGrantDue s →
    w = s.passedOn ⟨0x01, dest, 63, body⟩ →
    (body.length ≠ 3 → exec (.cycleMarker dest 63 body) s = .next w) ∧
    (body.length = 3 → ∀ v, v = { s.supervisor with
        cycle := field16 body 0, stampFrom := s.now } → ∃ t,
      exec (.cycleMarker dest 63 body) s = .next t ∧
      t = { w with
        supervisor := t.supervisor, generators := t.generators, points := t.points
        outstations := t.outstations, alarms := t.alarms, groups := t.groups
        reports := t.reports, lamps := t.lamps } ∧
      (∀ c, s.clock ≤ c → ({ t with clock := c }).stamp =
        ⟨field16 body 0, min 65535 (c / 1000 - s.clock / 1000)⟩) ∧
      (s.supervisor.state ≠ .inStep → t.generators = s.generators ∧ t.supervisor =
        { v with state := .inStep, reference := some s.now, misses := 0, skews := 0 }) ∧
      (∀ r, s.supervisor.state = .inStep → s.supervisor.reference = some r →
        (s.now + v.window < r + v.period → t.generators = s.generators ∧ t.supervisor =
          { v with skews := if v.skews < v.skewLimit then v.skews + 1 else v.skews }) ∧
        (r + v.period ≤ s.now + v.window → s.now ≤ r + v.period + v.window →
          t.supervisor = { v with reference := some s.now, misses := 0, skews := 0 } ∧
          ∀ c, t.generators.get c = if field8 body 2 % 2 = 1
            then realigned s.now (s.generators.get c) else s.generators.get c) ∧
        (r + v.period + v.window < s.now →
          t.supervisor = { v with reference := some s.now, misses := 0, skews := 0 } ∧
          ∀ c, t.generators.get c = if field8 body 2 % 2 = 1
            then realigned s.now (s.generators.get c) else s.generators.get c)) ∧
      t.outstations = s.outstations.map (fun o =>
        if s.staleLimit ≠ 0 ∧ o.silence < s.staleLimit then
          { o with
            silence := o.silence + 1
            stale := if o.silence + 1 = s.staleLimit then true else o.stale }
        else o) ∧
      OnlyRedriven w t)

/-- An accepted marker advances the travel counts judged by the quality at its arrival and evaluates
the entries that reach their limit, with the counts, the horn and first-up following, then makes
STALE_OUTSTATION occur for each outstation brought to the stale limit, then MARKER_SKEW where the
skew count reaches its limit, then, where it ends LOST, applies quality return to every point; each
record is stamped with the new cycle number and offset 0 (R35, R53, R57, R58, R65 to R71, R74, R119,
R123). -/
def Obligations.MarkerAdvancesTravelAndReturnsQuality : Prop :=
  ∀ (n dest : Byte) (body : List Byte) (s w : State) (stamp : Stamp) (skewed : Bool)
    (x : AlarmBoard) (r : Reports),
    AssignedAs s n → NoGrantDue s → KeysRise s → w = s.passedOn ⟨0x01, dest, 63, body⟩ →
    body.length = 3 →
    stamp = ⟨field16 body 0, 0⟩ →
    (skewed = true ↔ s.supervisor.state = .inStep ∧ s.supervisor.skews + 1 = s.supervisor.skewLimit ∧
      ∃ ref, s.supervisor.reference = some ref ∧
        s.now + s.supervisor.window < ref + s.supervisor.period) →
    x = s.stuckNow.foldl (AlarmBoard.evaluated stamp) w.board →
    r = (s.outstations.filter fun o => o.silence + 1 == s.staleLimit).foldl
      (fun r _ => r.caused stamp .staleOutstation) x.reports → ∃ t,
    exec (.cycleMarker dest 63 body) s = .next t ∧
    (s.supervisor.state ≠ .lost → t.points = s.afterTravel stamp ∧ t.alarms = x.alarms ∧
      t.groups = x.groups ∧ t.reports = if skewed then r.caused stamp .markerSkew else r) ∧
    (s.supervisor.state = .lost → Returned s
      { w with supervisor := t.supervisor, outstations := t.outstations, reports := r } t
      fun _ => true)

/-- The late bound's expiry is taken at its moment: the window reference advances by the period; in
IN_STEP with a miss limit it counts a miss, and the miss that reaches the limit makes supervision
LOST, with LOOP_LOST caused and the lamps following; in LOST, or with the limit 0, nothing is
counted (R115, R120, R122, R56). That the row LATE_BOUND_EXPIRY moves the clock to the late bound,
and changes nothing in NO_SYNC, is the model's choice (assumption log 5). -/
def Obligations.LateBoundExpiryCountsAMiss : Prop :=
  ∀ s : State, NoGrantDue s →
    (s.supervisor.state = .noSync → exec .lateBoundExpiry s = .next s) ∧
    (∀ r v, s.supervisor.state ≠ .noSync → s.supervisor.reference = some r →
      v = { s.supervisor with reference := some (r + s.supervisor.period) } → ∃ t,
      exec .lateBoundExpiry s = .next t ∧
      t = { s with
        clock := max s.clock (1000 * (r + s.supervisor.period + s.supervisor.window))
        supervisor := t.supervisor, reports := t.reports, lamps := t.lamps } ∧
      (s.supervisor.state = .lost ∨ v.missLimit = 0 →
        t.supervisor = v ∧ t.reports = s.reports ∧ t.lamps = s.lamps) ∧
      (s.supervisor.state = .inStep → v.misses + 1 < v.missLimit →
        t.supervisor = { v with misses := v.misses + 1 } ∧ t.reports = s.reports ∧
        t.lamps = s.lamps) ∧
      (s.supervisor.state = .inStep → v.missLimit ≠ 0 → v.missLimit ≤ v.misses + 1 →
        t.supervisor = { v with misses := v.missLimit, state := .lost } ∧
        t.reports = s.reports.caused t.stamp .loopLost ∧ OnlyRedriven s t))

/-- A POINTS frame of 1 to 8 whole items takes them one after another in frame order, each against
the state the one before it left, and the lamps show what the last one leaves; a frame with a wrong
count or length is only forwarded (R24 to R31, R58). -/
def Obligations.PointsFrameTakesItsItemsInOrder : Prop :=
  ∀ (n dest : Byte) (body : List Byte) (s w : State) (count : Nat), AssignedAs s n →
    NoGrantDue s → KeysRise s →
    w = s.passedOn ⟨0x02, dest, 63, body⟩ → count = field8 body 0 →
    (¬ (1 ≤ count ∧ count ≤ 8 ∧ body.length = 1 + 6 * count) → LampsSettled s →
      exec (.pointsFrame dest 63 body) s = .next w) ∧
    (1 ≤ count ∧ count ≤ 8 ∧ body.length = 1 + 6 * count → ∃ (t : State) (u : Nat → State),
      exec (.pointsFrame dest 63 body) s = .next t ∧ u 0 = w ∧
      (∀ k, k < count → ItemTaken (field16 body (1 + 6 * k) % 4096) (field8 body (3 + 6 * k))
        (field16 body (4 + 6 * k)) (field8 body (6 + 6 * k) % 2 = 1) (u k) (u (k + 1))) ∧
      t = { u count with lamps := t.lamps } ∧ OnlyRedriven (u count) t)

/-- An UP report makes a known outstation UP, heard from and not stale, with quality return for its
points; a DOWN report makes it DOWN and nothing more; every other OUTSTATION frame is only forwarded
(R49 to R51, R58). -/
def Obligations.OutstationReportMovesItsPoints : Prop :=
  ∀ (n dest : Byte) (body : List Byte) (s w : State) (k : Nat), AssignedAs s n →
    NoGrantDue s → KeysRise s →
    w = s.passedOn ⟨0x03, dest, 63, body⟩ → k = field16 body 0 % 4096 →
    (body.length ≠ 3 ∨ k = 0 ∨ s.outstation k = none ∨
        (field8 body 2 ≠ 1 ∧ field8 body 2 ≠ 2) →
      exec (.outstationFrame dest 63 body) s = .next w) ∧
    (body.length = 3 → k ≠ 0 → (s.outstation k).isSome → field8 body 2 = 1 → ∃ t u,
      exec (.outstationFrame dest 63 body) s = .next t ∧
      u = { w with outstations := s.outstations.map fun o =>
        if o.number = k then { o with comms := .up, silence := 0, stale := false } else o } ∧
      t = { u with
        points := t.points, alarms := t.alarms, groups := t.groups, reports := t.reports
        lamps := t.lamps } ∧
      Returned s u t (fun e => e.key.outstation == k) ∧ OnlyRedriven w t) ∧
    (body.length = 3 → k ≠ 0 → (s.outstation k).isSome → field8 body 2 = 2 → ∃ t,
      exec (.outstationFrame dest 63 body) s = .next t ∧
      t = { w with
        outstations := s.outstations.map fun o =>
          if o.number = k then { o with comms := .down } else o
        lamps := t.lamps } ∧
      OnlyRedriven w t)

/-! ### Sensing, cadences and pins -/

/-- The sense timer's expiry judges every channel driven DARK, STEADY or at a STOPPED cadence; the
end of a phase judges every channel at its generator's level, expecting current after ON, and begins
the next phase, a new period with the reload, or STOPPED; a channel in a sweep's bank is judged by
neither, and a PASS-ONLY controller senses nothing (R100 to R102, R112, R128, R131). That both rows
move the clock to the moment of their timer, and that PHASE_END of a generator with no phase changes
nothing, is the model's choice (assumption log 5). -/
def Obligations.SenseInstantsJudgeTheLamps : Prop :=
  ∀ (g : Cadence) (currents : BitVec 256) (s : State), NoGrantDue s →
    (∃ t, exec (.senseTimerExpiry currents) s = .next t ∧
      t = { s with
        clock := max s.clock (1000 * s.lamps.senseDue), lamps := t.lamps, reports := t.reports } ∧
      t.lamps = { s.lamps with
        channels := t.lamps.channels, senseDue := s.lamps.senseDue + 200 } ∧
      (s.port.station = none → t.lamps.channels = s.lamps.channels ∧ t.reports = s.reports) ∧
      (s.port.station.isSome → SensedBy s t (fun c ch =>
        if s.lamps.sweep.any fun w => c / 16 == w.bank then none
        else match ch.driven with
          | .dark => some false
          | .steady => some true
          | .flash k => if (s.generators.get k).run = .stopped then some true else none)
        currents)) ∧
    ((s.generators.get g).phase = none → exec (.phaseEnd g currents) s = .next s) ∧
    (∀ p e old, old = s.generators.get g → old.phase = some (p, e) → ∃ t,
      exec (.phaseEnd g currents) s = .next t ∧
      t = { s with
        clock := max s.clock (1000 * e), lamps := t.lamps, reports := t.reports
        generators := t.generators } ∧
      t.lamps = { s.lamps with channels := t.lamps.channels } ∧
      (∀ d, d ≠ g → t.generators.get d = s.generators.get d) ∧
      (p = .on → t.generators.get g =
        { old with phase := some (.off, t.now + 10 * old.times.off) }) ∧
      (p = .off → old.run = .running → t.generators.get g =
        { times := old.reload.getD old.times, reload := none, run := .running
          phase := some (.on, t.now + 10 * (old.reload.getD old.times).on) }) ∧
      (p = .off → old.run = .stopping → t.generators.get g =
        { times := old.reload.getD old.times, reload := none, run := .stopped, phase := none }) ∧
      (s.port.station = none → t.lamps.channels = s.lamps.channels ∧ t.reports = s.reports) ∧
      (s.port.station.isSome → SensedBy s t (fun c ch =>
        if s.lamps.sweep.any fun w => c / 16 == w.bank then none
        else if ch.driven = .flash g then some (p == .on) else none) currents))

/-- A change at a pin starts the debounce timer of an INPUT line again. Its expiry drops the timer
where the level is unchanged, and else takes the pin level, lamp test following: a settling line's
first level and a release do nothing more; a press queues its KEY record and then performs the
line's function, and a line with function NONE, or a PASS-ONLY controller, performs nothing. That
the outside level of an OUTPUT line is kept and its timer never starts is the model's choice,
assumption log 15; that DEBOUNCE_EXPIRY moves the clock to the expiry, and changes nothing where the
line's timer does not run, is too, assumption log 5 (R139 to R142, R150, R72, R79, R80). -/
def Obligations.PinsAreDebouncedAndPressesPerformed : Prop :=
  ∀ (i : Fin 8) (level : PinLevel) (s : State) (l : Line), NoGrantDue s → KeysRise s →
    l = s.line i →
    (∃ t, exec (.pinChange i level) s = .next t ∧
      t = { s with panel := { s.panel with lines := t.panel.lines } } ∧
      (∀ j, j ≠ i → t.line j = s.line j) ∧
      t.line i = if l.pin = level then l else { l with
        pin := level, timer := if l.direction = .input then some s.now else l.timer }) ∧
    (l.timer = none → exec (.debounceExpiry i) s = .next s) ∧
    (∀ m, l.timer = some m → ∃ t, exec (.debounceExpiry i) s = .next t ∧
      t.clock = max s.clock (1000 * (m + s.panel.debounce)) ∧
      t.panel.debounce = s.panel.debounce ∧ (∀ j, j ≠ i → t.line j = s.line j) ∧
      (l.level = some l.pin →
        t = { s with clock := t.clock, panel := { s.panel with lines := t.panel.lines } } ∧
        t.line i = { l with timer := none }) ∧
      (l.level ≠ some l.pin →
        t.line i = { l with level := some l.pin, timer := none } ∧ LampTestFollows t ∧
        LampsFollow s t) ∧
      (l.level = none ∨ l.polarity.active l.pin = false ∨ l.function = .none ∨
          s.port.station = none →
        t = { s with clock := t.clock, panel := t.panel, lamps := t.lamps }) ∧
      (∀ u, l.level.isSome → l.level ≠ some l.pin → l.polarity.active l.pin = true →
        s.port.station.isSome →
        u = { s with
          clock := t.clock
          reports := s.reports.joined t.stamp (.key i.val l.function l.group) } →
        (l.function = .lampTest ∨ l.function = .report →
          t = { u with panel := t.panel, lamps := t.lamps }) ∧
        (l.function = .silence → t = { u with
          panel := t.panel, lamps := t.lamps
          alarms := { s.alarms with
            horn := if s.alarms.horn = .sounding then .silenced else s.alarms.horn } }) ∧
        (∀ scope : PointEntry → Bool,
          (l.function = .ackSection ∧ scope = fun _ => true) ∨
            (l.function = .ackGroup ∧ scope = fun e => e.group == l.group) →
          t = { u with
            panel := t.panel, lamps := t.lamps, points := t.points, alarms := t.alarms
            groups := t.groups, reports := t.reports } ∧
          Acknowledged u t scope)))

/-! ### Rules of single operations -/

/-- The quality of a point is the first of its six cases that applies (R47): the comms state, the
stale flag, the supervision state and the entry's own fields give it, and nothing else does. -/
def Obligations.QualityIsTheFirstCaseThatApplies : Prop :=
  ∀ (s : State) (e : PointEntry) (o : OutstationEntry), s.outstation e.key.outstation = some o →
    (e.raw = none → s.quality e = .never) ∧
    (e.raw ≠ none → o.comms = .down → s.quality e = .offline) ∧
    (e.raw ≠ none → o.comms ≠ .down → s.supervisor.state = .lost ∨ o.stale = true →
      s.quality e = .stale) ∧
    (e.raw ≠ none → o.comms ≠ .down → s.supervisor.state ≠ .lost → o.stale = false →
      (e.itemInvalid = true → s.quality e = .invalid) ∧
      (e.itemInvalid = false → (∃ m p, e.cls = .analogue m p) → e.sensorFault = true →
        s.quality e = .sensorFault) ∧
      (e.itemInvalid = false → (∀ m p, e.cls ≠ .analogue m p) ∨ e.sensorFault = false →
        s.quality e = .good))

/-- A valid item is stored and decoded by its point's class: a BINARY state, a DOUBLE position with
its travel count, an ANALOGUE fault check, fill, lit count and band with hysteresis; and what the
class does not have stays as it was (R30, R32 to R34, R37 to R42). An entry is evaluated by its
class: ABNORMAL, DISAGREE with the disagree alarm set, TRAVEL_STUCK at a travel limit that is not 0,
SENSOR_FAULT before any band, the cause of the band, or none (the result of R43). -/
def Obligations.ItemsDecodeByTheirClass : Prop :=
  ∀ (e x : PointEntry) (raw : Nat), x = e.store raw →
    (∀ inv normal one, e.cls = .binary inv normal → e.decoded = some (.state one) →
      e.evaluate = if one = normal then none else some .abnormal) ∧
    (∀ limit da p, e.cls = .double limit da → e.decoded = some (.position p) →
      e.evaluate = match p with
        | .disagree => if da then some .disagree else none
        | .travel => if limit ≠ 0 ∧ e.travel = limit then some .travelStuck else none
        | .opened => none
        | .closed => none) ∧
    (∀ mode q, e.cls = .analogue mode q → e.evaluate =
      if e.sensorFault = true then some .sensorFault
      else match e.band with
        | .normal => none
        | .high => some .high
        | .highHigh => some .highHigh
        | .low => some .low
        | .lowLow => some .lowLow) ∧
    x.raw = some raw ∧ x.itemInvalid = false ∧
    (∀ inv normal, e.cls = .binary inv normal → x = { e with
        raw := some raw, itemInvalid := false, decoded := some (.state (decide (raw ≠ 0))) } ∧
      (x.evaluate = some .abnormal ↔ decide (raw ≠ 0) ≠ normal) ∧
      ∀ s : State, s.quality x ≠ .sensorFault) ∧
    (∀ limit da, e.cls = .double limit da → ∃ p, x = { e with
        raw := some raw, itemInvalid := false, decoded := some (.position p)
        travel := if p = .travel ∧ e.decoded = some (.position .travel) then e.travel else 0 } ∧
      (p = .travel ↔ raw % 4 = 0) ∧ (p = .closed ↔ raw % 4 = 1) ∧ (p = .opened ↔ raw % 4 = 2) ∧
      (p = .disagree ↔ raw % 4 = 3) ∧ ∀ s : State, s.quality x ≠ .sensorFault) ∧
    (∀ mode q, e.cls = .analogue mode q → q.rawLo < q.rawHi →
      (raw < q.rawLo - q.underMargin ∨ q.rawHi + q.overMargin < raw → x = { e with
        raw := some raw, itemInvalid := false, sensorFault := true }) ∧
      (q.rawLo - q.underMargin ≤ raw ∧ raw ≤ q.rawHi + q.overMargin → ∃ r f n,
        x = { e with
          raw := some raw, itemInvalid := false, sensorFault := false
          decoded := some (.level f n), band := x.band } ∧
        (raw < q.rawLo → r = q.rawLo) ∧ (q.rawHi < raw → r = q.rawHi) ∧
        (q.rawLo ≤ raw ∧ raw ≤ q.rawHi → r = raw) ∧
        f = (r - q.rawLo) * 1000 / (q.rawHi - q.rawLo) ∧ f ≤ 1000 ∧
        n = (f * e.span + 500) / 1000 ∧ n ≤ e.span ∧
        ∀ high1 high2 low1 low2 : Prop,
          (high2 ↔ AtLeast q.hh 0 f ∨ (e.band = .highHigh ∧ AtLeast q.hh q.deadband f)) →
          (high1 ↔ high2 ∨ AtLeast q.h 0 f ∨
            ((e.band = .high ∨ e.band = .highHigh) ∧ AtLeast q.h q.deadband f)) →
          (low2 ↔ AtMost q.ll 0 f ∨ (e.band = .lowLow ∧ AtMost q.ll q.deadband f)) →
          (low1 ↔ low2 ∨ AtMost q.l 0 f ∨
            ((e.band = .low ∨ e.band = .lowLow) ∧ AtMost q.l q.deadband f)) →
          (x.band = .highHigh ↔ high2) ∧ (x.band = .high ↔ high1 ∧ ¬ high2) ∧
          (x.band = .lowLow ↔ ¬ high1 ∧ low2) ∧ (x.band = .low ↔ ¬ high1 ∧ low1 ∧ ¬ low2) ∧
          (x.band = .normal ↔ ¬ high1 ∧ ¬ low1)))

/-- The level a point composes for lamp k of its span: by the alarm state and the quality, from the
value display of its class (R91, R92). -/
def Obligations.LampsComposeTheirPoint : Prop :=
  ∀ (s : State) (e : PointEntry) (k : Nat) (lit : Nat → Prop) (first : Bool), k < e.span →
    (first = true ↔ ∃ (g : Nat) (h : g < 16),
      e.group = g + 1 ∧ s.groups[g].holder = some e.key) →
    (∀ j, lit j ↔ e.display j ≠ .dark) →
    (∀ inv normal one, e.cls = .binary inv normal → e.decoded = some (.state one) →
      e.display k = if one = inv then .dark else .steady) ∧
    (∀ limit da p, e.cls = .double limit da → e.span = 2 → e.decoded = some (.position p) →
      e.display k = match p with
        | .opened => if k = 0 then .steady else .dark
        | .closed => if k = 0 then .dark else .steady
        | .travel => .flash .motion
        | .disagree => .steady) ∧
    (∀ mode q f n, e.cls = .analogue mode q → e.decoded = some (.level f n) →
      e.display k = match mode with
        | .bar => if k < n then .steady else .dark
        | .dot => if 1 ≤ n ∧ k = n - 1 then .steady else .dark) ∧
    (e.decoded = none → e.display k = .dark) ∧
    (s.quality e = .never → s.compose e k = .dark) ∧
    (∀ c : Cadence, s.quality e ≠ .never → (e.alarmState = .rtnUnack ∧ c = .ret) ∨
        (e.alarmState = .unack ∧ c = (if first then .first else .alert)) →
      ((∃ limit da, e.cls = .double limit da) → s.compose e k = .flash c) ∧
      ((∀ limit da, e.cls ≠ .double limit da) →
        (lit k ∨ (k = 0 ∧ ∀ j, j < e.span → ¬ lit j) → s.compose e k = .flash c) ∧
        (¬ lit k → k ≠ 0 ∨ (∃ j, j < e.span ∧ lit j) → s.compose e k = .dark))) ∧
    (s.quality e ≠ .never → e.alarmState = .normal ∨ e.alarmState = .acked →
      (s.quality e = .good ∨ e.policy = .keep → s.compose e k = e.display k) ∧
      (s.quality e ≠ .good → e.policy = .dark → s.compose e k = .dark) ∧
      (s.quality e ≠ .good → e.policy = .wink →
        (lit k ∨ (k = 0 ∧ ∀ j, j < e.span → ¬ lit j) → s.compose e k = .flash .stale) ∧
        (¬ lit k → k ≠ 0 ∨ (∃ j, j < e.span ∧ lit j) → s.compose e k = .dark)))

/-- A channel shows the level of the first case of the source order that applies: lamp test, HOLD, a
RUNNING sweep on its bank, its override, the point it is bound to, none; at a PASS-ONLY controller
it is DARK. Its lamp is on by that level: a cadence level is on through its generator's ON phase and
off through its OFF phase, and steadily on while the generator is STOPPED (R88, R89, R106, R112). -/
def Obligations.LampsAreDrivenByTheFirstSource : Prop :=
  ∀ (s : State) (c : Nat) (ch : Channel),
    (s.port.station = none → s.drive c ch = (.dark, .none)) ∧
    (s.port.station.isSome → s.panel.lampTest = true → s.drive c ch = (.steady, .test)) ∧
    (s.port.station.isSome → s.panel.lampTest = false →
      (∀ l, s.lamps.holdEnds.isSome → ch.held = some l → s.drive c ch = (l, .hold)) ∧
      (∀ w d, s.lamps.holdEnds = none → s.lamps.sweep = some w → w.run = .running d →
        c / 16 = w.bank →
        s.drive c ch = (if w.step = c % 16 + 1 then .steady else .dark, .prove)) ∧
      (s.lamps.holdEnds = none →
        (∀ w, s.lamps.sweep = some w → c / 16 ≠ w.bank ∨ w.run = .paused) →
        (∀ l, ch.override = some l → s.drive c ch = (l, .override)) ∧
        (∀ key e, ch.override = none → ch.binding = some key → s.point key = some e →
          s.drive c ch = (s.compose e (c - e.firstLamp), .point)) ∧
        (ch.override = none → ch.binding = none → s.drive c ch = (.dark, .none)))) ∧
    (ch.driven = .dark → s.lampOn ch = false) ∧ (ch.driven = .steady → s.lampOn ch = true) ∧
    (∀ g e, ch.driven = .flash g →
      ((s.generators.get g).phase = some (.on, e) → s.lampOn ch = true) ∧
      ((s.generators.get g).phase = some (.off, e) → s.lampOn ch = false)) ∧
    (∀ g, ch.driven = .flash g → GeneratorLawful (s.generators.get g) →
      (s.generators.get g).run = .stopped → s.lampOn ch = true)

/-! ### Laws that every step keeps, from every state -/

/-- The queues and counts stay within their ranges, a slot is reserved exactly for a sweep, and HOLD
and a sweep are never in effect together, whatever step is taken (R28, R89, R151, R158, R159, R165,
R166, R173, R183, R185, R188). -/
def Obligations.EveryStepKeepsTheQueuesWithinTheirRanges : Prop :=
  ∀ s t : State, QueuesFit s → step s = .next t → QueuesFit t

/-- The Point Table and the Outstation Table stay in their orders and capacities, the outstation
entries stay those the points name, the lamps of the entries lie apart and every binding names the
entry that owns the channel, whatever step is taken (R1, R5, R12, R14, R16, R20, R90). -/
def Obligations.EveryStepKeepsTheTablesInOrder : Prop :=
  ∀ s t : State, TablesInOrder s → step s = .next t → TablesInOrder t

/-- The alarm records, the counts derived from them, the horn and the first-up holders stay in
agreement, whatever step is taken (R4, R63, R69, R71, R74, R75). -/
def Obligations.EveryStepKeepsTheAlarmsInAgreement : Prop :=
  ∀ s t : State, TablesInOrder s → AlarmsAgree s → step s = .next t → AlarmsAgree t

/-- Supervision, the silence counts and the generators stay within their laws, and a PASS-ONLY
controller stays quiet in every other block, whatever step is taken (R52, R53, R112, R115, R127,
R130, R150, R160). -/
def Obligations.EveryStepKeepsLoopTimeLawful : Prop :=
  ∀ s t : State, (TimeLawful s → step s = .next t → TimeLawful t) ∧
    (PassOnlyIsQuiet s → step s = .next t → PassOnlyIsQuiet t)

/-- Every channel goes on showing what the source order gives it, and the lines, lamp test, HOLD and
a sweep stay in agreement, whatever step is taken (R87, R89, R93, R96, R105, R108, R137 to R142). -/
def Obligations.EveryStepKeepsTheLampsAndLinesInAgreement : Prop :=
  ∀ s t : State, (LampsSettled s → step s = .next t → LampsSettled t) ∧
    (PanelAgrees s → step s = .next t → PanelAgrees t)
end

