-- ==== Sys2Proof/Laws/State.lean ====
section
/-! SUPPORT. What each update of the state leaves alone: one lemma per update and field, true by rfl, so that no
proof unfolds an update to read a field it does not touch. -/

namespace Sys2Proof.Machine

/-! ### advanceTo: time moved on -/

@[simp] theorem State.advanceTo_startDue (s : State) (us : Nat) :
    (s.advanceTo us).startDue = s.startDue := rfl
@[simp] theorem State.advanceTo_port (s : State) (us : Nat) :
    (s.advanceTo us).port = s.port := rfl
@[simp] theorem State.advanceTo_commands (s : State) (us : Nat) :
    (s.advanceTo us).commands = s.commands := rfl
@[simp] theorem State.advanceTo_supervisor (s : State) (us : Nat) :
    (s.advanceTo us).supervisor = s.supervisor := rfl
@[simp] theorem State.advanceTo_generators (s : State) (us : Nat) :
    (s.advanceTo us).generators = s.generators := rfl
@[simp] theorem State.advanceTo_points (s : State) (us : Nat) :
    (s.advanceTo us).points = s.points := rfl
@[simp] theorem State.advanceTo_outstations (s : State) (us : Nat) :
    (s.advanceTo us).outstations = s.outstations := rfl
@[simp] theorem State.advanceTo_groups (s : State) (us : Nat) :
    (s.advanceTo us).groups = s.groups := rfl
@[simp] theorem State.advanceTo_unmapped (s : State) (us : Nat) :
    (s.advanceTo us).unmapped = s.unmapped := rfl
@[simp] theorem State.advanceTo_staleLimit (s : State) (us : Nat) :
    (s.advanceTo us).staleLimit = s.staleLimit := rfl
@[simp] theorem State.advanceTo_alarms (s : State) (us : Nat) :
    (s.advanceTo us).alarms = s.alarms := rfl
@[simp] theorem State.advanceTo_lamps (s : State) (us : Nat) :
    (s.advanceTo us).lamps = s.lamps := rfl
@[simp] theorem State.advanceTo_panel (s : State) (us : Nat) :
    (s.advanceTo us).panel = s.panel := rfl
@[simp] theorem State.advanceTo_reports (s : State) (us : Nat) :
    (s.advanceTo us).reports = s.reports := rfl
@[simp] theorem State.advanceTo_pending (s : State) (us : Nat) :
    (s.advanceTo us).pending = s.pending := rfl

/-! ### record: an event record made -/

@[simp] theorem State.record_clock (s : State) (d : RecordData) :
    (s.record d).clock = s.clock := rfl
@[simp] theorem State.record_startDue (s : State) (d : RecordData) :
    (s.record d).startDue = s.startDue := rfl
@[simp] theorem State.record_port (s : State) (d : RecordData) :
    (s.record d).port = s.port := rfl
@[simp] theorem State.record_commands (s : State) (d : RecordData) :
    (s.record d).commands = s.commands := rfl
@[simp] theorem State.record_supervisor (s : State) (d : RecordData) :
    (s.record d).supervisor = s.supervisor := rfl
@[simp] theorem State.record_generators (s : State) (d : RecordData) :
    (s.record d).generators = s.generators := rfl
@[simp] theorem State.record_points (s : State) (d : RecordData) :
    (s.record d).points = s.points := rfl
@[simp] theorem State.record_outstations (s : State) (d : RecordData) :
    (s.record d).outstations = s.outstations := rfl
@[simp] theorem State.record_groups (s : State) (d : RecordData) :
    (s.record d).groups = s.groups := rfl
@[simp] theorem State.record_unmapped (s : State) (d : RecordData) :
    (s.record d).unmapped = s.unmapped := rfl
@[simp] theorem State.record_staleLimit (s : State) (d : RecordData) :
    (s.record d).staleLimit = s.staleLimit := rfl
@[simp] theorem State.record_alarms (s : State) (d : RecordData) :
    (s.record d).alarms = s.alarms := rfl
@[simp] theorem State.record_lamps (s : State) (d : RecordData) :
    (s.record d).lamps = s.lamps := rfl
@[simp] theorem State.record_panel (s : State) (d : RecordData) :
    (s.record d).panel = s.panel := rfl
@[simp] theorem State.record_pending (s : State) (d : RecordData) :
    (s.record d).pending = s.pending := rfl

/-! ### occur: a cause occurring -/

@[simp] theorem State.occur_clock (s : State) (c : Condition) :
    (s.occur c).clock = s.clock := rfl
@[simp] theorem State.occur_startDue (s : State) (c : Condition) :
    (s.occur c).startDue = s.startDue := rfl
@[simp] theorem State.occur_port (s : State) (c : Condition) :
    (s.occur c).port = s.port := rfl
@[simp] theorem State.occur_commands (s : State) (c : Condition) :
    (s.occur c).commands = s.commands := rfl
@[simp] theorem State.occur_supervisor (s : State) (c : Condition) :
    (s.occur c).supervisor = s.supervisor := rfl
@[simp] theorem State.occur_generators (s : State) (c : Condition) :
    (s.occur c).generators = s.generators := rfl
@[simp] theorem State.occur_points (s : State) (c : Condition) :
    (s.occur c).points = s.points := rfl
@[simp] theorem State.occur_outstations (s : State) (c : Condition) :
    (s.occur c).outstations = s.outstations := rfl
@[simp] theorem State.occur_groups (s : State) (c : Condition) :
    (s.occur c).groups = s.groups := rfl
@[simp] theorem State.occur_unmapped (s : State) (c : Condition) :
    (s.occur c).unmapped = s.unmapped := rfl
@[simp] theorem State.occur_staleLimit (s : State) (c : Condition) :
    (s.occur c).staleLimit = s.staleLimit := rfl
@[simp] theorem State.occur_alarms (s : State) (c : Condition) :
    (s.occur c).alarms = s.alarms := rfl
@[simp] theorem State.occur_lamps (s : State) (c : Condition) :
    (s.occur c).lamps = s.lamps := rfl
@[simp] theorem State.occur_panel (s : State) (c : Condition) :
    (s.occur c).panel = s.panel := rfl
@[simp] theorem State.occur_pending (s : State) (c : Condition) :
    (s.occur c).pending = s.pending := rfl

/-! ### modifyGroup: one group changed -/

@[simp] theorem State.modifyGroup_clock (s : State) (g : Nat) (f : Group → Group) :
    (s.modifyGroup g f).clock = s.clock := rfl
@[simp] theorem State.modifyGroup_startDue (s : State) (g : Nat) (f : Group → Group) :
    (s.modifyGroup g f).startDue = s.startDue := rfl
@[simp] theorem State.modifyGroup_port (s : State) (g : Nat) (f : Group → Group) :
    (s.modifyGroup g f).port = s.port := rfl
@[simp] theorem State.modifyGroup_commands (s : State) (g : Nat) (f : Group → Group) :
    (s.modifyGroup g f).commands = s.commands := rfl
@[simp] theorem State.modifyGroup_supervisor (s : State) (g : Nat) (f : Group → Group) :
    (s.modifyGroup g f).supervisor = s.supervisor := rfl
@[simp] theorem State.modifyGroup_generators (s : State) (g : Nat) (f : Group → Group) :
    (s.modifyGroup g f).generators = s.generators := rfl
@[simp] theorem State.modifyGroup_points (s : State) (g : Nat) (f : Group → Group) :
    (s.modifyGroup g f).points = s.points := rfl
@[simp] theorem State.modifyGroup_outstations (s : State) (g : Nat) (f : Group → Group) :
    (s.modifyGroup g f).outstations = s.outstations := rfl
@[simp] theorem State.modifyGroup_unmapped (s : State) (g : Nat) (f : Group → Group) :
    (s.modifyGroup g f).unmapped = s.unmapped := rfl
@[simp] theorem State.modifyGroup_staleLimit (s : State) (g : Nat) (f : Group → Group) :
    (s.modifyGroup g f).staleLimit = s.staleLimit := rfl
@[simp] theorem State.modifyGroup_alarms (s : State) (g : Nat) (f : Group → Group) :
    (s.modifyGroup g f).alarms = s.alarms := rfl
@[simp] theorem State.modifyGroup_lamps (s : State) (g : Nat) (f : Group → Group) :
    (s.modifyGroup g f).lamps = s.lamps := rfl
@[simp] theorem State.modifyGroup_panel (s : State) (g : Nat) (f : Group → Group) :
    (s.modifyGroup g f).panel = s.panel := rfl
@[simp] theorem State.modifyGroup_reports (s : State) (g : Nat) (f : Group → Group) :
    (s.modifyGroup g f).reports = s.reports := rfl
@[simp] theorem State.modifyGroup_pending (s : State) (g : Nat) (f : Group → Group) :
    (s.modifyGroup g f).pending = s.pending := rfl

/-! ### clearHolders: the holders cleared -/

@[simp] theorem State.clearHolders_clock (s : State) :
    (s.clearHolders).clock = s.clock := rfl
@[simp] theorem State.clearHolders_startDue (s : State) :
    (s.clearHolders).startDue = s.startDue := rfl
@[simp] theorem State.clearHolders_port (s : State) :
    (s.clearHolders).port = s.port := rfl
@[simp] theorem State.clearHolders_commands (s : State) :
    (s.clearHolders).commands = s.commands := rfl
@[simp] theorem State.clearHolders_supervisor (s : State) :
    (s.clearHolders).supervisor = s.supervisor := rfl
@[simp] theorem State.clearHolders_generators (s : State) :
    (s.clearHolders).generators = s.generators := rfl
@[simp] theorem State.clearHolders_points (s : State) :
    (s.clearHolders).points = s.points := rfl
@[simp] theorem State.clearHolders_outstations (s : State) :
    (s.clearHolders).outstations = s.outstations := rfl
@[simp] theorem State.clearHolders_unmapped (s : State) :
    (s.clearHolders).unmapped = s.unmapped := rfl
@[simp] theorem State.clearHolders_staleLimit (s : State) :
    (s.clearHolders).staleLimit = s.staleLimit := rfl
@[simp] theorem State.clearHolders_alarms (s : State) :
    (s.clearHolders).alarms = s.alarms := rfl
@[simp] theorem State.clearHolders_lamps (s : State) :
    (s.clearHolders).lamps = s.lamps := rfl
@[simp] theorem State.clearHolders_panel (s : State) :
    (s.clearHolders).panel = s.panel := rfl
@[simp] theorem State.clearHolders_reports (s : State) :
    (s.clearHolders).reports = s.reports := rfl
@[simp] theorem State.clearHolders_pending (s : State) :
    (s.clearHolders).pending = s.pending := rfl

/-! ### mapChannels: the channels rebuilt -/

@[simp] theorem State.mapChannels_clock (s : State) (f : Nat → Channel → Channel) :
    (s.mapChannels f).clock = s.clock := rfl
@[simp] theorem State.mapChannels_startDue (s : State) (f : Nat → Channel → Channel) :
    (s.mapChannels f).startDue = s.startDue := rfl
@[simp] theorem State.mapChannels_port (s : State) (f : Nat → Channel → Channel) :
    (s.mapChannels f).port = s.port := rfl
@[simp] theorem State.mapChannels_commands (s : State) (f : Nat → Channel → Channel) :
    (s.mapChannels f).commands = s.commands := rfl
@[simp] theorem State.mapChannels_supervisor (s : State) (f : Nat → Channel → Channel) :
    (s.mapChannels f).supervisor = s.supervisor := rfl
@[simp] theorem State.mapChannels_generators (s : State) (f : Nat → Channel → Channel) :
    (s.mapChannels f).generators = s.generators := rfl
@[simp] theorem State.mapChannels_points (s : State) (f : Nat → Channel → Channel) :
    (s.mapChannels f).points = s.points := rfl
@[simp] theorem State.mapChannels_outstations (s : State) (f : Nat → Channel → Channel) :
    (s.mapChannels f).outstations = s.outstations := rfl
@[simp] theorem State.mapChannels_groups (s : State) (f : Nat → Channel → Channel) :
    (s.mapChannels f).groups = s.groups := rfl
@[simp] theorem State.mapChannels_unmapped (s : State) (f : Nat → Channel → Channel) :
    (s.mapChannels f).unmapped = s.unmapped := rfl
@[simp] theorem State.mapChannels_staleLimit (s : State) (f : Nat → Channel → Channel) :
    (s.mapChannels f).staleLimit = s.staleLimit := rfl
@[simp] theorem State.mapChannels_alarms (s : State) (f : Nat → Channel → Channel) :
    (s.mapChannels f).alarms = s.alarms := rfl
@[simp] theorem State.mapChannels_panel (s : State) (f : Nat → Channel → Channel) :
    (s.mapChannels f).panel = s.panel := rfl
@[simp] theorem State.mapChannels_reports (s : State) (f : Nat → Channel → Channel) :
    (s.mapChannels f).reports = s.reports := rfl
@[simp] theorem State.mapChannels_pending (s : State) (f : Nat → Channel → Channel) :
    (s.mapChannels f).pending = s.pending := rfl

/-! ### settleLamps: the lamps driven anew -/

@[simp] theorem State.settleLamps_clock (s : State) :
    (s.settleLamps).clock = s.clock := rfl
@[simp] theorem State.settleLamps_startDue (s : State) :
    (s.settleLamps).startDue = s.startDue := rfl
@[simp] theorem State.settleLamps_port (s : State) :
    (s.settleLamps).port = s.port := rfl
@[simp] theorem State.settleLamps_commands (s : State) :
    (s.settleLamps).commands = s.commands := rfl
@[simp] theorem State.settleLamps_supervisor (s : State) :
    (s.settleLamps).supervisor = s.supervisor := rfl
@[simp] theorem State.settleLamps_generators (s : State) :
    (s.settleLamps).generators = s.generators := rfl
@[simp] theorem State.settleLamps_points (s : State) :
    (s.settleLamps).points = s.points := rfl
@[simp] theorem State.settleLamps_outstations (s : State) :
    (s.settleLamps).outstations = s.outstations := rfl
@[simp] theorem State.settleLamps_groups (s : State) :
    (s.settleLamps).groups = s.groups := rfl
@[simp] theorem State.settleLamps_unmapped (s : State) :
    (s.settleLamps).unmapped = s.unmapped := rfl
@[simp] theorem State.settleLamps_staleLimit (s : State) :
    (s.settleLamps).staleLimit = s.staleLimit := rfl
@[simp] theorem State.settleLamps_alarms (s : State) :
    (s.settleLamps).alarms = s.alarms := rfl
@[simp] theorem State.settleLamps_panel (s : State) :
    (s.settleLamps).panel = s.panel := rfl
@[simp] theorem State.settleLamps_reports (s : State) :
    (s.settleLamps).reports = s.reports := rfl
@[simp] theorem State.settleLamps_pending (s : State) :
    (s.settleLamps).pending = s.pending := rfl

/-! ### bind: lamps bound -/

@[simp] theorem State.bind_clock (s : State) (e : PointEntry) :
    (s.bind e).clock = s.clock := rfl
@[simp] theorem State.bind_startDue (s : State) (e : PointEntry) :
    (s.bind e).startDue = s.startDue := rfl
@[simp] theorem State.bind_port (s : State) (e : PointEntry) :
    (s.bind e).port = s.port := rfl
@[simp] theorem State.bind_commands (s : State) (e : PointEntry) :
    (s.bind e).commands = s.commands := rfl
@[simp] theorem State.bind_supervisor (s : State) (e : PointEntry) :
    (s.bind e).supervisor = s.supervisor := rfl
@[simp] theorem State.bind_generators (s : State) (e : PointEntry) :
    (s.bind e).generators = s.generators := rfl
@[simp] theorem State.bind_points (s : State) (e : PointEntry) :
    (s.bind e).points = s.points := rfl
@[simp] theorem State.bind_outstations (s : State) (e : PointEntry) :
    (s.bind e).outstations = s.outstations := rfl
@[simp] theorem State.bind_groups (s : State) (e : PointEntry) :
    (s.bind e).groups = s.groups := rfl
@[simp] theorem State.bind_unmapped (s : State) (e : PointEntry) :
    (s.bind e).unmapped = s.unmapped := rfl
@[simp] theorem State.bind_staleLimit (s : State) (e : PointEntry) :
    (s.bind e).staleLimit = s.staleLimit := rfl
@[simp] theorem State.bind_alarms (s : State) (e : PointEntry) :
    (s.bind e).alarms = s.alarms := rfl
@[simp] theorem State.bind_panel (s : State) (e : PointEntry) :
    (s.bind e).panel = s.panel := rfl
@[simp] theorem State.bind_reports (s : State) (e : PointEntry) :
    (s.bind e).reports = s.reports := rfl
@[simp] theorem State.bind_pending (s : State) (e : PointEntry) :
    (s.bind e).pending = s.pending := rfl

/-! ### unbind: lamps unbound -/

@[simp] theorem State.unbind_clock (s : State) (k : Key) :
    (s.unbind k).clock = s.clock := rfl
@[simp] theorem State.unbind_startDue (s : State) (k : Key) :
    (s.unbind k).startDue = s.startDue := rfl
@[simp] theorem State.unbind_port (s : State) (k : Key) :
    (s.unbind k).port = s.port := rfl
@[simp] theorem State.unbind_commands (s : State) (k : Key) :
    (s.unbind k).commands = s.commands := rfl
@[simp] theorem State.unbind_supervisor (s : State) (k : Key) :
    (s.unbind k).supervisor = s.supervisor := rfl
@[simp] theorem State.unbind_generators (s : State) (k : Key) :
    (s.unbind k).generators = s.generators := rfl
@[simp] theorem State.unbind_points (s : State) (k : Key) :
    (s.unbind k).points = s.points := rfl
@[simp] theorem State.unbind_outstations (s : State) (k : Key) :
    (s.unbind k).outstations = s.outstations := rfl
@[simp] theorem State.unbind_groups (s : State) (k : Key) :
    (s.unbind k).groups = s.groups := rfl
@[simp] theorem State.unbind_unmapped (s : State) (k : Key) :
    (s.unbind k).unmapped = s.unmapped := rfl
@[simp] theorem State.unbind_staleLimit (s : State) (k : Key) :
    (s.unbind k).staleLimit = s.staleLimit := rfl
@[simp] theorem State.unbind_alarms (s : State) (k : Key) :
    (s.unbind k).alarms = s.alarms := rfl
@[simp] theorem State.unbind_panel (s : State) (k : Key) :
    (s.unbind k).panel = s.panel := rfl
@[simp] theorem State.unbind_reports (s : State) (k : Key) :
    (s.unbind k).reports = s.reports := rfl
@[simp] theorem State.unbind_pending (s : State) (k : Key) :
    (s.unbind k).pending = s.pending := rfl

/-! ### unbindAll: every lamp unbound -/

@[simp] theorem State.unbindAll_clock (s : State) :
    (s.unbindAll).clock = s.clock := rfl
@[simp] theorem State.unbindAll_startDue (s : State) :
    (s.unbindAll).startDue = s.startDue := rfl
@[simp] theorem State.unbindAll_port (s : State) :
    (s.unbindAll).port = s.port := rfl
@[simp] theorem State.unbindAll_commands (s : State) :
    (s.unbindAll).commands = s.commands := rfl
@[simp] theorem State.unbindAll_supervisor (s : State) :
    (s.unbindAll).supervisor = s.supervisor := rfl
@[simp] theorem State.unbindAll_generators (s : State) :
    (s.unbindAll).generators = s.generators := rfl
@[simp] theorem State.unbindAll_points (s : State) :
    (s.unbindAll).points = s.points := rfl
@[simp] theorem State.unbindAll_outstations (s : State) :
    (s.unbindAll).outstations = s.outstations := rfl
@[simp] theorem State.unbindAll_groups (s : State) :
    (s.unbindAll).groups = s.groups := rfl
@[simp] theorem State.unbindAll_unmapped (s : State) :
    (s.unbindAll).unmapped = s.unmapped := rfl
@[simp] theorem State.unbindAll_staleLimit (s : State) :
    (s.unbindAll).staleLimit = s.staleLimit := rfl
@[simp] theorem State.unbindAll_alarms (s : State) :
    (s.unbindAll).alarms = s.alarms := rfl
@[simp] theorem State.unbindAll_panel (s : State) :
    (s.unbindAll).panel = s.panel := rfl
@[simp] theorem State.unbindAll_reports (s : State) :
    (s.unbindAll).reports = s.reports := rfl
@[simp] theorem State.unbindAll_pending (s : State) :
    (s.unbindAll).pending = s.pending := rfl

/-! ### rebind: bindings derived again -/

@[simp] theorem State.rebind_clock (s : State) :
    (s.rebind).clock = s.clock := rfl
@[simp] theorem State.rebind_startDue (s : State) :
    (s.rebind).startDue = s.startDue := rfl
@[simp] theorem State.rebind_port (s : State) :
    (s.rebind).port = s.port := rfl
@[simp] theorem State.rebind_commands (s : State) :
    (s.rebind).commands = s.commands := rfl
@[simp] theorem State.rebind_supervisor (s : State) :
    (s.rebind).supervisor = s.supervisor := rfl
@[simp] theorem State.rebind_generators (s : State) :
    (s.rebind).generators = s.generators := rfl
@[simp] theorem State.rebind_points (s : State) :
    (s.rebind).points = s.points := rfl
@[simp] theorem State.rebind_outstations (s : State) :
    (s.rebind).outstations = s.outstations := rfl
@[simp] theorem State.rebind_groups (s : State) :
    (s.rebind).groups = s.groups := rfl
@[simp] theorem State.rebind_unmapped (s : State) :
    (s.rebind).unmapped = s.unmapped := rfl
@[simp] theorem State.rebind_staleLimit (s : State) :
    (s.rebind).staleLimit = s.staleLimit := rfl
@[simp] theorem State.rebind_alarms (s : State) :
    (s.rebind).alarms = s.alarms := rfl
@[simp] theorem State.rebind_panel (s : State) :
    (s.rebind).panel = s.panel := rfl
@[simp] theorem State.rebind_reports (s : State) :
    (s.rebind).reports = s.reports := rfl
@[simp] theorem State.rebind_pending (s : State) :
    (s.rebind).pending = s.pending := rfl

/-! ### clearFaults: lamp faults cleared -/

@[simp] theorem State.clearFaults_clock (s : State) (b : Nat) :
    (s.clearFaults b).clock = s.clock := rfl
@[simp] theorem State.clearFaults_startDue (s : State) (b : Nat) :
    (s.clearFaults b).startDue = s.startDue := rfl
@[simp] theorem State.clearFaults_port (s : State) (b : Nat) :
    (s.clearFaults b).port = s.port := rfl
@[simp] theorem State.clearFaults_commands (s : State) (b : Nat) :
    (s.clearFaults b).commands = s.commands := rfl
@[simp] theorem State.clearFaults_supervisor (s : State) (b : Nat) :
    (s.clearFaults b).supervisor = s.supervisor := rfl
@[simp] theorem State.clearFaults_generators (s : State) (b : Nat) :
    (s.clearFaults b).generators = s.generators := rfl
@[simp] theorem State.clearFaults_points (s : State) (b : Nat) :
    (s.clearFaults b).points = s.points := rfl
@[simp] theorem State.clearFaults_outstations (s : State) (b : Nat) :
    (s.clearFaults b).outstations = s.outstations := rfl
@[simp] theorem State.clearFaults_groups (s : State) (b : Nat) :
    (s.clearFaults b).groups = s.groups := rfl
@[simp] theorem State.clearFaults_unmapped (s : State) (b : Nat) :
    (s.clearFaults b).unmapped = s.unmapped := rfl
@[simp] theorem State.clearFaults_staleLimit (s : State) (b : Nat) :
    (s.clearFaults b).staleLimit = s.staleLimit := rfl
@[simp] theorem State.clearFaults_alarms (s : State) (b : Nat) :
    (s.clearFaults b).alarms = s.alarms := rfl
@[simp] theorem State.clearFaults_panel (s : State) (b : Nat) :
    (s.clearFaults b).panel = s.panel := rfl
@[simp] theorem State.clearFaults_reports (s : State) (b : Nat) :
    (s.clearFaults b).reports = s.reports := rfl
@[simp] theorem State.clearFaults_pending (s : State) (b : Nat) :
    (s.clearFaults b).pending = s.pending := rfl

/-! ### beginHold: HOLD begun -/

@[simp] theorem State.beginHold_clock (s : State) (n : Nat) :
    (s.beginHold n).clock = s.clock := rfl
@[simp] theorem State.beginHold_startDue (s : State) (n : Nat) :
    (s.beginHold n).startDue = s.startDue := rfl
@[simp] theorem State.beginHold_port (s : State) (n : Nat) :
    (s.beginHold n).port = s.port := rfl
@[simp] theorem State.beginHold_commands (s : State) (n : Nat) :
    (s.beginHold n).commands = s.commands := rfl
@[simp] theorem State.beginHold_supervisor (s : State) (n : Nat) :
    (s.beginHold n).supervisor = s.supervisor := rfl
@[simp] theorem State.beginHold_generators (s : State) (n : Nat) :
    (s.beginHold n).generators = s.generators := rfl
@[simp] theorem State.beginHold_points (s : State) (n : Nat) :
    (s.beginHold n).points = s.points := rfl
@[simp] theorem State.beginHold_outstations (s : State) (n : Nat) :
    (s.beginHold n).outstations = s.outstations := rfl
@[simp] theorem State.beginHold_groups (s : State) (n : Nat) :
    (s.beginHold n).groups = s.groups := rfl
@[simp] theorem State.beginHold_unmapped (s : State) (n : Nat) :
    (s.beginHold n).unmapped = s.unmapped := rfl
@[simp] theorem State.beginHold_staleLimit (s : State) (n : Nat) :
    (s.beginHold n).staleLimit = s.staleLimit := rfl
@[simp] theorem State.beginHold_alarms (s : State) (n : Nat) :
    (s.beginHold n).alarms = s.alarms := rfl
@[simp] theorem State.beginHold_panel (s : State) (n : Nat) :
    (s.beginHold n).panel = s.panel := rfl
@[simp] theorem State.beginHold_reports (s : State) (n : Nat) :
    (s.beginHold n).reports = s.reports := rfl
@[simp] theorem State.beginHold_pending (s : State) (n : Nat) :
    (s.beginHold n).pending = s.pending := rfl

/-! ### endHold: HOLD ended -/

@[simp] theorem State.endHold_clock (s : State) :
    (s.endHold).clock = s.clock := rfl
@[simp] theorem State.endHold_startDue (s : State) :
    (s.endHold).startDue = s.startDue := rfl
@[simp] theorem State.endHold_port (s : State) :
    (s.endHold).port = s.port := rfl
@[simp] theorem State.endHold_commands (s : State) :
    (s.endHold).commands = s.commands := rfl
@[simp] theorem State.endHold_supervisor (s : State) :
    (s.endHold).supervisor = s.supervisor := rfl
@[simp] theorem State.endHold_generators (s : State) :
    (s.endHold).generators = s.generators := rfl
@[simp] theorem State.endHold_points (s : State) :
    (s.endHold).points = s.points := rfl
@[simp] theorem State.endHold_outstations (s : State) :
    (s.endHold).outstations = s.outstations := rfl
@[simp] theorem State.endHold_groups (s : State) :
    (s.endHold).groups = s.groups := rfl
@[simp] theorem State.endHold_unmapped (s : State) :
    (s.endHold).unmapped = s.unmapped := rfl
@[simp] theorem State.endHold_staleLimit (s : State) :
    (s.endHold).staleLimit = s.staleLimit := rfl
@[simp] theorem State.endHold_alarms (s : State) :
    (s.endHold).alarms = s.alarms := rfl
@[simp] theorem State.endHold_panel (s : State) :
    (s.endHold).panel = s.panel := rfl
@[simp] theorem State.endHold_reports (s : State) :
    (s.endHold).reports = s.reports := rfl
@[simp] theorem State.endHold_pending (s : State) :
    (s.endHold).pending = s.pending := rfl

/-! ### withSweep: the sweep changed -/

@[simp] theorem State.withSweep_clock (s : State) (w : Option Sweep) :
    (s.withSweep w).clock = s.clock := rfl
@[simp] theorem State.withSweep_startDue (s : State) (w : Option Sweep) :
    (s.withSweep w).startDue = s.startDue := rfl
@[simp] theorem State.withSweep_port (s : State) (w : Option Sweep) :
    (s.withSweep w).port = s.port := rfl
@[simp] theorem State.withSweep_commands (s : State) (w : Option Sweep) :
    (s.withSweep w).commands = s.commands := rfl
@[simp] theorem State.withSweep_supervisor (s : State) (w : Option Sweep) :
    (s.withSweep w).supervisor = s.supervisor := rfl
@[simp] theorem State.withSweep_generators (s : State) (w : Option Sweep) :
    (s.withSweep w).generators = s.generators := rfl
@[simp] theorem State.withSweep_points (s : State) (w : Option Sweep) :
    (s.withSweep w).points = s.points := rfl
@[simp] theorem State.withSweep_outstations (s : State) (w : Option Sweep) :
    (s.withSweep w).outstations = s.outstations := rfl
@[simp] theorem State.withSweep_groups (s : State) (w : Option Sweep) :
    (s.withSweep w).groups = s.groups := rfl
@[simp] theorem State.withSweep_unmapped (s : State) (w : Option Sweep) :
    (s.withSweep w).unmapped = s.unmapped := rfl
@[simp] theorem State.withSweep_staleLimit (s : State) (w : Option Sweep) :
    (s.withSweep w).staleLimit = s.staleLimit := rfl
@[simp] theorem State.withSweep_alarms (s : State) (w : Option Sweep) :
    (s.withSweep w).alarms = s.alarms := rfl
@[simp] theorem State.withSweep_panel (s : State) (w : Option Sweep) :
    (s.withSweep w).panel = s.panel := rfl
@[simp] theorem State.withSweep_reports (s : State) (w : Option Sweep) :
    (s.withSweep w).reports = s.reports := rfl
@[simp] theorem State.withSweep_pending (s : State) (w : Option Sweep) :
    (s.withSweep w).pending = s.pending := rfl

/-! ### drawCurrents: an own event's draw on the free currents -/

@[simp] theorem State.drawCurrents_clock (s : State) :
    (s.drawCurrents).clock = s.clock := rfl
@[simp] theorem State.drawCurrents_startDue (s : State) :
    (s.drawCurrents).startDue = s.startDue := rfl
@[simp] theorem State.drawCurrents_port (s : State) :
    (s.drawCurrents).port = s.port := rfl
@[simp] theorem State.drawCurrents_commands (s : State) :
    (s.drawCurrents).commands = s.commands := rfl
@[simp] theorem State.drawCurrents_supervisor (s : State) :
    (s.drawCurrents).supervisor = s.supervisor := rfl
@[simp] theorem State.drawCurrents_generators (s : State) :
    (s.drawCurrents).generators = s.generators := rfl
@[simp] theorem State.drawCurrents_points (s : State) :
    (s.drawCurrents).points = s.points := rfl
@[simp] theorem State.drawCurrents_outstations (s : State) :
    (s.drawCurrents).outstations = s.outstations := rfl
@[simp] theorem State.drawCurrents_groups (s : State) :
    (s.drawCurrents).groups = s.groups := rfl
@[simp] theorem State.drawCurrents_unmapped (s : State) :
    (s.drawCurrents).unmapped = s.unmapped := rfl
@[simp] theorem State.drawCurrents_staleLimit (s : State) :
    (s.drawCurrents).staleLimit = s.staleLimit := rfl
@[simp] theorem State.drawCurrents_alarms (s : State) :
    (s.drawCurrents).alarms = s.alarms := rfl
@[simp] theorem State.drawCurrents_panel (s : State) :
    (s.drawCurrents).panel = s.panel := rfl
@[simp] theorem State.drawCurrents_reports (s : State) :
    (s.drawCurrents).reports = s.reports := rfl
@[simp] theorem State.drawCurrents_pending (s : State) :
    (s.drawCurrents).pending = s.pending := rfl

/-! ### passTime: time passed -/

@[simp] theorem State.passTime_startDue (s : State) :
    (s.passTime).startDue = s.startDue := rfl
@[simp] theorem State.passTime_port (s : State) :
    (s.passTime).port = s.port := rfl
@[simp] theorem State.passTime_commands (s : State) :
    (s.passTime).commands = s.commands := rfl
@[simp] theorem State.passTime_supervisor (s : State) :
    (s.passTime).supervisor = s.supervisor := rfl
@[simp] theorem State.passTime_generators (s : State) :
    (s.passTime).generators = s.generators := rfl
@[simp] theorem State.passTime_points (s : State) :
    (s.passTime).points = s.points := rfl
@[simp] theorem State.passTime_outstations (s : State) :
    (s.passTime).outstations = s.outstations := rfl
@[simp] theorem State.passTime_groups (s : State) :
    (s.passTime).groups = s.groups := rfl
@[simp] theorem State.passTime_unmapped (s : State) :
    (s.passTime).unmapped = s.unmapped := rfl
@[simp] theorem State.passTime_staleLimit (s : State) :
    (s.passTime).staleLimit = s.staleLimit := rfl
@[simp] theorem State.passTime_alarms (s : State) :
    (s.passTime).alarms = s.alarms := rfl
@[simp] theorem State.passTime_lamps (s : State) :
    (s.passTime).lamps = s.lamps := rfl
@[simp] theorem State.passTime_panel (s : State) :
    (s.passTime).panel = s.panel := rfl
@[simp] theorem State.passTime_reports (s : State) :
    (s.passTime).reports = s.reports := rfl
@[simp] theorem State.passTime_pending (s : State) :
    (s.passTime).pending = s.pending := rfl

/-! ### modifyLine: one line changed -/

@[simp] theorem State.modifyLine_clock (s : State) (i : Fin 8) (f : Line → Line) :
    (s.modifyLine i f).clock = s.clock := rfl
@[simp] theorem State.modifyLine_startDue (s : State) (i : Fin 8) (f : Line → Line) :
    (s.modifyLine i f).startDue = s.startDue := rfl
@[simp] theorem State.modifyLine_port (s : State) (i : Fin 8) (f : Line → Line) :
    (s.modifyLine i f).port = s.port := rfl
@[simp] theorem State.modifyLine_commands (s : State) (i : Fin 8) (f : Line → Line) :
    (s.modifyLine i f).commands = s.commands := rfl
@[simp] theorem State.modifyLine_supervisor (s : State) (i : Fin 8) (f : Line → Line) :
    (s.modifyLine i f).supervisor = s.supervisor := rfl
@[simp] theorem State.modifyLine_generators (s : State) (i : Fin 8) (f : Line → Line) :
    (s.modifyLine i f).generators = s.generators := rfl
@[simp] theorem State.modifyLine_points (s : State) (i : Fin 8) (f : Line → Line) :
    (s.modifyLine i f).points = s.points := rfl
@[simp] theorem State.modifyLine_outstations (s : State) (i : Fin 8) (f : Line → Line) :
    (s.modifyLine i f).outstations = s.outstations := rfl
@[simp] theorem State.modifyLine_groups (s : State) (i : Fin 8) (f : Line → Line) :
    (s.modifyLine i f).groups = s.groups := rfl
@[simp] theorem State.modifyLine_unmapped (s : State) (i : Fin 8) (f : Line → Line) :
    (s.modifyLine i f).unmapped = s.unmapped := rfl
@[simp] theorem State.modifyLine_staleLimit (s : State) (i : Fin 8) (f : Line → Line) :
    (s.modifyLine i f).staleLimit = s.staleLimit := rfl
@[simp] theorem State.modifyLine_alarms (s : State) (i : Fin 8) (f : Line → Line) :
    (s.modifyLine i f).alarms = s.alarms := rfl
@[simp] theorem State.modifyLine_lamps (s : State) (i : Fin 8) (f : Line → Line) :
    (s.modifyLine i f).lamps = s.lamps := rfl
@[simp] theorem State.modifyLine_reports (s : State) (i : Fin 8) (f : Line → Line) :
    (s.modifyLine i f).reports = s.reports := rfl
@[simp] theorem State.modifyLine_pending (s : State) (i : Fin 8) (f : Line → Line) :
    (s.modifyLine i f).pending = s.pending := rfl

/-! ### setDebounce: the debounce time set -/

@[simp] theorem State.setDebounce_clock (s : State) (ms : Nat) :
    (s.setDebounce ms).clock = s.clock := rfl
@[simp] theorem State.setDebounce_startDue (s : State) (ms : Nat) :
    (s.setDebounce ms).startDue = s.startDue := rfl
@[simp] theorem State.setDebounce_port (s : State) (ms : Nat) :
    (s.setDebounce ms).port = s.port := rfl
@[simp] theorem State.setDebounce_commands (s : State) (ms : Nat) :
    (s.setDebounce ms).commands = s.commands := rfl
@[simp] theorem State.setDebounce_supervisor (s : State) (ms : Nat) :
    (s.setDebounce ms).supervisor = s.supervisor := rfl
@[simp] theorem State.setDebounce_generators (s : State) (ms : Nat) :
    (s.setDebounce ms).generators = s.generators := rfl
@[simp] theorem State.setDebounce_points (s : State) (ms : Nat) :
    (s.setDebounce ms).points = s.points := rfl
@[simp] theorem State.setDebounce_outstations (s : State) (ms : Nat) :
    (s.setDebounce ms).outstations = s.outstations := rfl
@[simp] theorem State.setDebounce_groups (s : State) (ms : Nat) :
    (s.setDebounce ms).groups = s.groups := rfl
@[simp] theorem State.setDebounce_unmapped (s : State) (ms : Nat) :
    (s.setDebounce ms).unmapped = s.unmapped := rfl
@[simp] theorem State.setDebounce_staleLimit (s : State) (ms : Nat) :
    (s.setDebounce ms).staleLimit = s.staleLimit := rfl
@[simp] theorem State.setDebounce_alarms (s : State) (ms : Nat) :
    (s.setDebounce ms).alarms = s.alarms := rfl
@[simp] theorem State.setDebounce_lamps (s : State) (ms : Nat) :
    (s.setDebounce ms).lamps = s.lamps := rfl
@[simp] theorem State.setDebounce_reports (s : State) (ms : Nat) :
    (s.setDebounce ms).reports = s.reports := rfl
@[simp] theorem State.setDebounce_pending (s : State) (ms : Nat) :
    (s.setDebounce ms).pending = s.pending := rfl

/-! ### writeLatches: latches written -/

@[simp] theorem State.writeLatches_clock (s : State) (m v : Byte) :
    (s.writeLatches m v).clock = s.clock := rfl
@[simp] theorem State.writeLatches_startDue (s : State) (m v : Byte) :
    (s.writeLatches m v).startDue = s.startDue := rfl
@[simp] theorem State.writeLatches_port (s : State) (m v : Byte) :
    (s.writeLatches m v).port = s.port := rfl
@[simp] theorem State.writeLatches_commands (s : State) (m v : Byte) :
    (s.writeLatches m v).commands = s.commands := rfl
@[simp] theorem State.writeLatches_supervisor (s : State) (m v : Byte) :
    (s.writeLatches m v).supervisor = s.supervisor := rfl
@[simp] theorem State.writeLatches_generators (s : State) (m v : Byte) :
    (s.writeLatches m v).generators = s.generators := rfl
@[simp] theorem State.writeLatches_points (s : State) (m v : Byte) :
    (s.writeLatches m v).points = s.points := rfl
@[simp] theorem State.writeLatches_outstations (s : State) (m v : Byte) :
    (s.writeLatches m v).outstations = s.outstations := rfl
@[simp] theorem State.writeLatches_groups (s : State) (m v : Byte) :
    (s.writeLatches m v).groups = s.groups := rfl
@[simp] theorem State.writeLatches_unmapped (s : State) (m v : Byte) :
    (s.writeLatches m v).unmapped = s.unmapped := rfl
@[simp] theorem State.writeLatches_staleLimit (s : State) (m v : Byte) :
    (s.writeLatches m v).staleLimit = s.staleLimit := rfl
@[simp] theorem State.writeLatches_alarms (s : State) (m v : Byte) :
    (s.writeLatches m v).alarms = s.alarms := rfl
@[simp] theorem State.writeLatches_lamps (s : State) (m v : Byte) :
    (s.writeLatches m v).lamps = s.lamps := rfl
@[simp] theorem State.writeLatches_reports (s : State) (m v : Byte) :
    (s.writeLatches m v).reports = s.reports := rfl
@[simp] theorem State.writeLatches_pending (s : State) (m v : Byte) :
    (s.writeLatches m v).pending = s.pending := rfl

/-! ### restartPanel: the lines restarted -/

@[simp] theorem State.restartPanel_clock (s : State) :
    (s.restartPanel).clock = s.clock := rfl
@[simp] theorem State.restartPanel_startDue (s : State) :
    (s.restartPanel).startDue = s.startDue := rfl
@[simp] theorem State.restartPanel_port (s : State) :
    (s.restartPanel).port = s.port := rfl
@[simp] theorem State.restartPanel_commands (s : State) :
    (s.restartPanel).commands = s.commands := rfl
@[simp] theorem State.restartPanel_supervisor (s : State) :
    (s.restartPanel).supervisor = s.supervisor := rfl
@[simp] theorem State.restartPanel_generators (s : State) :
    (s.restartPanel).generators = s.generators := rfl
@[simp] theorem State.restartPanel_points (s : State) :
    (s.restartPanel).points = s.points := rfl
@[simp] theorem State.restartPanel_outstations (s : State) :
    (s.restartPanel).outstations = s.outstations := rfl
@[simp] theorem State.restartPanel_groups (s : State) :
    (s.restartPanel).groups = s.groups := rfl
@[simp] theorem State.restartPanel_unmapped (s : State) :
    (s.restartPanel).unmapped = s.unmapped := rfl
@[simp] theorem State.restartPanel_staleLimit (s : State) :
    (s.restartPanel).staleLimit = s.staleLimit := rfl
@[simp] theorem State.restartPanel_alarms (s : State) :
    (s.restartPanel).alarms = s.alarms := rfl
@[simp] theorem State.restartPanel_lamps (s : State) :
    (s.restartPanel).lamps = s.lamps := rfl
@[simp] theorem State.restartPanel_reports (s : State) :
    (s.restartPanel).reports = s.reports := rfl
@[simp] theorem State.restartPanel_pending (s : State) :
    (s.restartPanel).pending = s.pending := rfl

/-! ### followLampTest: lamp test followed -/

@[simp] theorem State.followLampTest_clock (s : State) :
    (s.followLampTest).clock = s.clock := rfl
@[simp] theorem State.followLampTest_startDue (s : State) :
    (s.followLampTest).startDue = s.startDue := rfl
@[simp] theorem State.followLampTest_port (s : State) :
    (s.followLampTest).port = s.port := rfl
@[simp] theorem State.followLampTest_commands (s : State) :
    (s.followLampTest).commands = s.commands := rfl
@[simp] theorem State.followLampTest_supervisor (s : State) :
    (s.followLampTest).supervisor = s.supervisor := rfl
@[simp] theorem State.followLampTest_generators (s : State) :
    (s.followLampTest).generators = s.generators := rfl
@[simp] theorem State.followLampTest_points (s : State) :
    (s.followLampTest).points = s.points := rfl
@[simp] theorem State.followLampTest_outstations (s : State) :
    (s.followLampTest).outstations = s.outstations := rfl
@[simp] theorem State.followLampTest_groups (s : State) :
    (s.followLampTest).groups = s.groups := rfl
@[simp] theorem State.followLampTest_unmapped (s : State) :
    (s.followLampTest).unmapped = s.unmapped := rfl
@[simp] theorem State.followLampTest_staleLimit (s : State) :
    (s.followLampTest).staleLimit = s.staleLimit := rfl
@[simp] theorem State.followLampTest_alarms (s : State) :
    (s.followLampTest).alarms = s.alarms := rfl
@[simp] theorem State.followLampTest_reports (s : State) :
    (s.followLampTest).reports = s.reports := rfl
@[simp] theorem State.followLampTest_pending (s : State) :
    (s.followLampTest).pending = s.pending := rfl

/-! ### silenceHorn: the horn silenced -/

@[simp] theorem State.silenceHorn_clock (s : State) :
    (s.silenceHorn).clock = s.clock := rfl
@[simp] theorem State.silenceHorn_startDue (s : State) :
    (s.silenceHorn).startDue = s.startDue := rfl
@[simp] theorem State.silenceHorn_port (s : State) :
    (s.silenceHorn).port = s.port := rfl
@[simp] theorem State.silenceHorn_commands (s : State) :
    (s.silenceHorn).commands = s.commands := rfl
@[simp] theorem State.silenceHorn_supervisor (s : State) :
    (s.silenceHorn).supervisor = s.supervisor := rfl
@[simp] theorem State.silenceHorn_generators (s : State) :
    (s.silenceHorn).generators = s.generators := rfl
@[simp] theorem State.silenceHorn_points (s : State) :
    (s.silenceHorn).points = s.points := rfl
@[simp] theorem State.silenceHorn_outstations (s : State) :
    (s.silenceHorn).outstations = s.outstations := rfl
@[simp] theorem State.silenceHorn_groups (s : State) :
    (s.silenceHorn).groups = s.groups := rfl
@[simp] theorem State.silenceHorn_unmapped (s : State) :
    (s.silenceHorn).unmapped = s.unmapped := rfl
@[simp] theorem State.silenceHorn_staleLimit (s : State) :
    (s.silenceHorn).staleLimit = s.staleLimit := rfl
@[simp] theorem State.silenceHorn_lamps (s : State) :
    (s.silenceHorn).lamps = s.lamps := rfl
@[simp] theorem State.silenceHorn_panel (s : State) :
    (s.silenceHorn).panel = s.panel := rfl
@[simp] theorem State.silenceHorn_reports (s : State) :
    (s.silenceHorn).reports = s.reports := rfl
@[simp] theorem State.silenceHorn_pending (s : State) :
    (s.silenceHorn).pending = s.pending := rfl

/-! ### setHornEnables: the horn enables set -/

@[simp] theorem State.setHornEnables_clock (s : State) (a b c : Bool) :
    (s.setHornEnables a b c).clock = s.clock := rfl
@[simp] theorem State.setHornEnables_startDue (s : State) (a b c : Bool) :
    (s.setHornEnables a b c).startDue = s.startDue := rfl
@[simp] theorem State.setHornEnables_port (s : State) (a b c : Bool) :
    (s.setHornEnables a b c).port = s.port := rfl
@[simp] theorem State.setHornEnables_commands (s : State) (a b c : Bool) :
    (s.setHornEnables a b c).commands = s.commands := rfl
@[simp] theorem State.setHornEnables_supervisor (s : State) (a b c : Bool) :
    (s.setHornEnables a b c).supervisor = s.supervisor := rfl
@[simp] theorem State.setHornEnables_generators (s : State) (a b c : Bool) :
    (s.setHornEnables a b c).generators = s.generators := rfl
@[simp] theorem State.setHornEnables_points (s : State) (a b c : Bool) :
    (s.setHornEnables a b c).points = s.points := rfl
@[simp] theorem State.setHornEnables_outstations (s : State) (a b c : Bool) :
    (s.setHornEnables a b c).outstations = s.outstations := rfl
@[simp] theorem State.setHornEnables_groups (s : State) (a b c : Bool) :
    (s.setHornEnables a b c).groups = s.groups := rfl
@[simp] theorem State.setHornEnables_unmapped (s : State) (a b c : Bool) :
    (s.setHornEnables a b c).unmapped = s.unmapped := rfl
@[simp] theorem State.setHornEnables_staleLimit (s : State) (a b c : Bool) :
    (s.setHornEnables a b c).staleLimit = s.staleLimit := rfl
@[simp] theorem State.setHornEnables_lamps (s : State) (a b c : Bool) :
    (s.setHornEnables a b c).lamps = s.lamps := rfl
@[simp] theorem State.setHornEnables_panel (s : State) (a b c : Bool) :
    (s.setHornEnables a b c).panel = s.panel := rfl
@[simp] theorem State.setHornEnables_reports (s : State) (a b c : Bool) :
    (s.setHornEnables a b c).reports = s.reports := rfl
@[simp] theorem State.setHornEnables_pending (s : State) (a b c : Bool) :
    (s.setHornEnables a b c).pending = s.pending := rfl

/-! ### transition: an alarm transition -/

@[simp] theorem State.transition_clock (s : State) (e : PointEntry) (o n : AlarmRecord) (t : Transition) (c : Option Cause) :
    (s.transition e o n t c).clock = s.clock := rfl
@[simp] theorem State.transition_startDue (s : State) (e : PointEntry) (o n : AlarmRecord) (t : Transition) (c : Option Cause) :
    (s.transition e o n t c).startDue = s.startDue := rfl
@[simp] theorem State.transition_port (s : State) (e : PointEntry) (o n : AlarmRecord) (t : Transition) (c : Option Cause) :
    (s.transition e o n t c).port = s.port := rfl
@[simp] theorem State.transition_commands (s : State) (e : PointEntry) (o n : AlarmRecord) (t : Transition) (c : Option Cause) :
    (s.transition e o n t c).commands = s.commands := rfl
@[simp] theorem State.transition_supervisor (s : State) (e : PointEntry) (o n : AlarmRecord) (t : Transition) (c : Option Cause) :
    (s.transition e o n t c).supervisor = s.supervisor := rfl
@[simp] theorem State.transition_generators (s : State) (e : PointEntry) (o n : AlarmRecord) (t : Transition) (c : Option Cause) :
    (s.transition e o n t c).generators = s.generators := rfl
@[simp] theorem State.transition_outstations (s : State) (e : PointEntry) (o n : AlarmRecord) (t : Transition) (c : Option Cause) :
    (s.transition e o n t c).outstations = s.outstations := rfl
@[simp] theorem State.transition_unmapped (s : State) (e : PointEntry) (o n : AlarmRecord) (t : Transition) (c : Option Cause) :
    (s.transition e o n t c).unmapped = s.unmapped := rfl
@[simp] theorem State.transition_staleLimit (s : State) (e : PointEntry) (o n : AlarmRecord) (t : Transition) (c : Option Cause) :
    (s.transition e o n t c).staleLimit = s.staleLimit := rfl
@[simp] theorem State.transition_lamps (s : State) (e : PointEntry) (o n : AlarmRecord) (t : Transition) (c : Option Cause) :
    (s.transition e o n t c).lamps = s.lamps := rfl
@[simp] theorem State.transition_panel (s : State) (e : PointEntry) (o n : AlarmRecord) (t : Transition) (c : Option Cause) :
    (s.transition e o n t c).panel = s.panel := rfl
@[simp] theorem State.transition_pending (s : State) (e : PointEntry) (o n : AlarmRecord) (t : Transition) (c : Option Cause) :
    (s.transition e o n t c).pending = s.pending := rfl

/-! ### countUnmapped: an item counted UNMAPPED -/

@[simp] theorem State.countUnmapped_clock (s : State) :
    (s.countUnmapped).clock = s.clock := rfl
@[simp] theorem State.countUnmapped_startDue (s : State) :
    (s.countUnmapped).startDue = s.startDue := rfl
@[simp] theorem State.countUnmapped_port (s : State) :
    (s.countUnmapped).port = s.port := rfl
@[simp] theorem State.countUnmapped_commands (s : State) :
    (s.countUnmapped).commands = s.commands := rfl
@[simp] theorem State.countUnmapped_supervisor (s : State) :
    (s.countUnmapped).supervisor = s.supervisor := rfl
@[simp] theorem State.countUnmapped_generators (s : State) :
    (s.countUnmapped).generators = s.generators := rfl
@[simp] theorem State.countUnmapped_points (s : State) :
    (s.countUnmapped).points = s.points := rfl
@[simp] theorem State.countUnmapped_outstations (s : State) :
    (s.countUnmapped).outstations = s.outstations := rfl
@[simp] theorem State.countUnmapped_groups (s : State) :
    (s.countUnmapped).groups = s.groups := rfl
@[simp] theorem State.countUnmapped_staleLimit (s : State) :
    (s.countUnmapped).staleLimit = s.staleLimit := rfl
@[simp] theorem State.countUnmapped_alarms (s : State) :
    (s.countUnmapped).alarms = s.alarms := rfl
@[simp] theorem State.countUnmapped_lamps (s : State) :
    (s.countUnmapped).lamps = s.lamps := rfl
@[simp] theorem State.countUnmapped_panel (s : State) :
    (s.countUnmapped).panel = s.panel := rfl
@[simp] theorem State.countUnmapped_reports (s : State) :
    (s.countUnmapped).reports = s.reports := rfl
@[simp] theorem State.countUnmapped_pending (s : State) :
    (s.countUnmapped).pending = s.pending := rfl

/-! ### takeInvalid: an INVALID item -/

@[simp] theorem State.takeInvalid_clock (s : State) (k : Key) :
    (s.takeInvalid k).clock = s.clock := rfl
@[simp] theorem State.takeInvalid_startDue (s : State) (k : Key) :
    (s.takeInvalid k).startDue = s.startDue := rfl
@[simp] theorem State.takeInvalid_port (s : State) (k : Key) :
    (s.takeInvalid k).port = s.port := rfl
@[simp] theorem State.takeInvalid_commands (s : State) (k : Key) :
    (s.takeInvalid k).commands = s.commands := rfl
@[simp] theorem State.takeInvalid_supervisor (s : State) (k : Key) :
    (s.takeInvalid k).supervisor = s.supervisor := rfl
@[simp] theorem State.takeInvalid_generators (s : State) (k : Key) :
    (s.takeInvalid k).generators = s.generators := rfl
@[simp] theorem State.takeInvalid_outstations (s : State) (k : Key) :
    (s.takeInvalid k).outstations = s.outstations := rfl
@[simp] theorem State.takeInvalid_groups (s : State) (k : Key) :
    (s.takeInvalid k).groups = s.groups := rfl
@[simp] theorem State.takeInvalid_unmapped (s : State) (k : Key) :
    (s.takeInvalid k).unmapped = s.unmapped := rfl
@[simp] theorem State.takeInvalid_staleLimit (s : State) (k : Key) :
    (s.takeInvalid k).staleLimit = s.staleLimit := rfl
@[simp] theorem State.takeInvalid_alarms (s : State) (k : Key) :
    (s.takeInvalid k).alarms = s.alarms := rfl
@[simp] theorem State.takeInvalid_lamps (s : State) (k : Key) :
    (s.takeInvalid k).lamps = s.lamps := rfl
@[simp] theorem State.takeInvalid_panel (s : State) (k : Key) :
    (s.takeInvalid k).panel = s.panel := rfl
@[simp] theorem State.takeInvalid_reports (s : State) (k : Key) :
    (s.takeInvalid k).reports = s.reports := rfl
@[simp] theorem State.takeInvalid_pending (s : State) (k : Key) :
    (s.takeInvalid k).pending = s.pending := rfl

/-! ### realign: a realignment -/

@[simp] theorem State.realign_clock (s : State) :
    (s.realign).clock = s.clock := rfl
@[simp] theorem State.realign_startDue (s : State) :
    (s.realign).startDue = s.startDue := rfl
@[simp] theorem State.realign_port (s : State) :
    (s.realign).port = s.port := rfl
@[simp] theorem State.realign_commands (s : State) :
    (s.realign).commands = s.commands := rfl
@[simp] theorem State.realign_supervisor (s : State) :
    (s.realign).supervisor = s.supervisor := rfl
@[simp] theorem State.realign_points (s : State) :
    (s.realign).points = s.points := rfl
@[simp] theorem State.realign_outstations (s : State) :
    (s.realign).outstations = s.outstations := rfl
@[simp] theorem State.realign_groups (s : State) :
    (s.realign).groups = s.groups := rfl
@[simp] theorem State.realign_unmapped (s : State) :
    (s.realign).unmapped = s.unmapped := rfl
@[simp] theorem State.realign_staleLimit (s : State) :
    (s.realign).staleLimit = s.staleLimit := rfl
@[simp] theorem State.realign_alarms (s : State) :
    (s.realign).alarms = s.alarms := rfl
@[simp] theorem State.realign_lamps (s : State) :
    (s.realign).lamps = s.lamps := rfl
@[simp] theorem State.realign_panel (s : State) :
    (s.realign).panel = s.panel := rfl
@[simp] theorem State.realign_reports (s : State) :
    (s.realign).reports = s.reports := rfl
@[simp] theorem State.realign_pending (s : State) :
    (s.realign).pending = s.pending := rfl

/-! ### setTiming: SET TIMING -/

@[simp] theorem State.setTiming_clock (s : State) (t : Timing) :
    (s.setTiming t).clock = s.clock := rfl
@[simp] theorem State.setTiming_startDue (s : State) (t : Timing) :
    (s.setTiming t).startDue = s.startDue := rfl
@[simp] theorem State.setTiming_port (s : State) (t : Timing) :
    (s.setTiming t).port = s.port := rfl
@[simp] theorem State.setTiming_commands (s : State) (t : Timing) :
    (s.setTiming t).commands = s.commands := rfl
@[simp] theorem State.setTiming_generators (s : State) (t : Timing) :
    (s.setTiming t).generators = s.generators := rfl
@[simp] theorem State.setTiming_points (s : State) (t : Timing) :
    (s.setTiming t).points = s.points := rfl
@[simp] theorem State.setTiming_outstations (s : State) (t : Timing) :
    (s.setTiming t).outstations = s.outstations := rfl
@[simp] theorem State.setTiming_groups (s : State) (t : Timing) :
    (s.setTiming t).groups = s.groups := rfl
@[simp] theorem State.setTiming_unmapped (s : State) (t : Timing) :
    (s.setTiming t).unmapped = s.unmapped := rfl
@[simp] theorem State.setTiming_staleLimit (s : State) (t : Timing) :
    (s.setTiming t).staleLimit = s.staleLimit := rfl
@[simp] theorem State.setTiming_alarms (s : State) (t : Timing) :
    (s.setTiming t).alarms = s.alarms := rfl
@[simp] theorem State.setTiming_lamps (s : State) (t : Timing) :
    (s.setTiming t).lamps = s.lamps := rfl
@[simp] theorem State.setTiming_panel (s : State) (t : Timing) :
    (s.setTiming t).panel = s.panel := rfl
@[simp] theorem State.setTiming_reports (s : State) (t : Timing) :
    (s.setTiming t).reports = s.reports := rfl
@[simp] theorem State.setTiming_pending (s : State) (t : Timing) :
    (s.setTiming t).pending = s.pending := rfl

/-! ### emptyQueues: the queues emptied -/

@[simp] theorem State.emptyQueues_clock (s : State) :
    (s.emptyQueues).clock = s.clock := rfl
@[simp] theorem State.emptyQueues_startDue (s : State) :
    (s.emptyQueues).startDue = s.startDue := rfl
@[simp] theorem State.emptyQueues_port (s : State) :
    (s.emptyQueues).port = s.port := rfl
@[simp] theorem State.emptyQueues_supervisor (s : State) :
    (s.emptyQueues).supervisor = s.supervisor := rfl
@[simp] theorem State.emptyQueues_generators (s : State) :
    (s.emptyQueues).generators = s.generators := rfl
@[simp] theorem State.emptyQueues_points (s : State) :
    (s.emptyQueues).points = s.points := rfl
@[simp] theorem State.emptyQueues_outstations (s : State) :
    (s.emptyQueues).outstations = s.outstations := rfl
@[simp] theorem State.emptyQueues_groups (s : State) :
    (s.emptyQueues).groups = s.groups := rfl
@[simp] theorem State.emptyQueues_unmapped (s : State) :
    (s.emptyQueues).unmapped = s.unmapped := rfl
@[simp] theorem State.emptyQueues_staleLimit (s : State) :
    (s.emptyQueues).staleLimit = s.staleLimit := rfl
@[simp] theorem State.emptyQueues_alarms (s : State) :
    (s.emptyQueues).alarms = s.alarms := rfl
@[simp] theorem State.emptyQueues_lamps (s : State) :
    (s.emptyQueues).lamps = s.lamps := rfl
@[simp] theorem State.emptyQueues_panel (s : State) :
    (s.emptyQueues).panel = s.panel := rfl
@[simp] theorem State.emptyQueues_pending (s : State) :
    (s.emptyQueues).pending = s.pending := rfl

/-! ### restartPort: the counts restarted -/

@[simp] theorem State.restartPort_clock (s : State) :
    (s.restartPort).clock = s.clock := rfl
@[simp] theorem State.restartPort_startDue (s : State) :
    (s.restartPort).startDue = s.startDue := rfl
@[simp] theorem State.restartPort_supervisor (s : State) :
    (s.restartPort).supervisor = s.supervisor := rfl
@[simp] theorem State.restartPort_generators (s : State) :
    (s.restartPort).generators = s.generators := rfl
@[simp] theorem State.restartPort_points (s : State) :
    (s.restartPort).points = s.points := rfl
@[simp] theorem State.restartPort_outstations (s : State) :
    (s.restartPort).outstations = s.outstations := rfl
@[simp] theorem State.restartPort_groups (s : State) :
    (s.restartPort).groups = s.groups := rfl
@[simp] theorem State.restartPort_unmapped (s : State) :
    (s.restartPort).unmapped = s.unmapped := rfl
@[simp] theorem State.restartPort_staleLimit (s : State) :
    (s.restartPort).staleLimit = s.staleLimit := rfl
@[simp] theorem State.restartPort_alarms (s : State) :
    (s.restartPort).alarms = s.alarms := rfl
@[simp] theorem State.restartPort_lamps (s : State) :
    (s.restartPort).lamps = s.lamps := rfl
@[simp] theorem State.restartPort_panel (s : State) :
    (s.restartPort).panel = s.panel := rfl
@[simp] theorem State.restartPort_reports (s : State) :
    (s.restartPort).reports = s.reports := rfl
@[simp] theorem State.restartPort_pending (s : State) :
    (s.restartPort).pending = s.pending := rfl

/-! ### restartTables: the tables restarted -/

@[simp] theorem State.restartTables_clock (s : State) :
    (s.restartTables).clock = s.clock := rfl
@[simp] theorem State.restartTables_startDue (s : State) :
    (s.restartTables).startDue = s.startDue := rfl
@[simp] theorem State.restartTables_port (s : State) :
    (s.restartTables).port = s.port := rfl
@[simp] theorem State.restartTables_commands (s : State) :
    (s.restartTables).commands = s.commands := rfl
@[simp] theorem State.restartTables_supervisor (s : State) :
    (s.restartTables).supervisor = s.supervisor := rfl
@[simp] theorem State.restartTables_generators (s : State) :
    (s.restartTables).generators = s.generators := rfl
@[simp] theorem State.restartTables_staleLimit (s : State) :
    (s.restartTables).staleLimit = s.staleLimit := rfl
@[simp] theorem State.restartTables_alarms (s : State) :
    (s.restartTables).alarms = s.alarms := rfl
@[simp] theorem State.restartTables_lamps (s : State) :
    (s.restartTables).lamps = s.lamps := rfl
@[simp] theorem State.restartTables_panel (s : State) :
    (s.restartTables).panel = s.panel := rfl
@[simp] theorem State.restartTables_reports (s : State) :
    (s.restartTables).reports = s.reports := rfl
@[simp] theorem State.restartTables_pending (s : State) :
    (s.restartTables).pending = s.pending := rfl

/-! ### restartTime: time and alarms restarted -/

@[simp] theorem State.restartTime_clock (s : State) :
    (s.restartTime).clock = s.clock := rfl
@[simp] theorem State.restartTime_startDue (s : State) :
    (s.restartTime).startDue = s.startDue := rfl
@[simp] theorem State.restartTime_port (s : State) :
    (s.restartTime).port = s.port := rfl
@[simp] theorem State.restartTime_commands (s : State) :
    (s.restartTime).commands = s.commands := rfl
@[simp] theorem State.restartTime_points (s : State) :
    (s.restartTime).points = s.points := rfl
@[simp] theorem State.restartTime_outstations (s : State) :
    (s.restartTime).outstations = s.outstations := rfl
@[simp] theorem State.restartTime_groups (s : State) :
    (s.restartTime).groups = s.groups := rfl
@[simp] theorem State.restartTime_unmapped (s : State) :
    (s.restartTime).unmapped = s.unmapped := rfl
@[simp] theorem State.restartTime_staleLimit (s : State) :
    (s.restartTime).staleLimit = s.staleLimit := rfl
@[simp] theorem State.restartTime_lamps (s : State) :
    (s.restartTime).lamps = s.lamps := rfl
@[simp] theorem State.restartTime_panel (s : State) :
    (s.restartTime).panel = s.panel := rfl
@[simp] theorem State.restartTime_reports (s : State) :
    (s.restartTime).reports = s.reports := rfl
@[simp] theorem State.restartTime_pending (s : State) :
    (s.restartTime).pending = s.pending := rfl

/-! ### restartLamps: the lamps restarted -/

@[simp] theorem State.restartLamps_clock (s : State) :
    (s.restartLamps).clock = s.clock := rfl
@[simp] theorem State.restartLamps_startDue (s : State) :
    (s.restartLamps).startDue = s.startDue := rfl
@[simp] theorem State.restartLamps_port (s : State) :
    (s.restartLamps).port = s.port := rfl
@[simp] theorem State.restartLamps_commands (s : State) :
    (s.restartLamps).commands = s.commands := rfl
@[simp] theorem State.restartLamps_supervisor (s : State) :
    (s.restartLamps).supervisor = s.supervisor := rfl
@[simp] theorem State.restartLamps_generators (s : State) :
    (s.restartLamps).generators = s.generators := rfl
@[simp] theorem State.restartLamps_points (s : State) :
    (s.restartLamps).points = s.points := rfl
@[simp] theorem State.restartLamps_outstations (s : State) :
    (s.restartLamps).outstations = s.outstations := rfl
@[simp] theorem State.restartLamps_groups (s : State) :
    (s.restartLamps).groups = s.groups := rfl
@[simp] theorem State.restartLamps_unmapped (s : State) :
    (s.restartLamps).unmapped = s.unmapped := rfl
@[simp] theorem State.restartLamps_staleLimit (s : State) :
    (s.restartLamps).staleLimit = s.staleLimit := rfl
@[simp] theorem State.restartLamps_alarms (s : State) :
    (s.restartLamps).alarms = s.alarms := rfl
@[simp] theorem State.restartLamps_panel (s : State) :
    (s.restartLamps).panel = s.panel := rfl
@[simp] theorem State.restartLamps_reports (s : State) :
    (s.restartLamps).reports = s.reports := rfl
@[simp] theorem State.restartLamps_pending (s : State) :
    (s.restartLamps).pending = s.pending := rfl

/-! ### setMask: the report mask set -/

@[simp] theorem State.setMask_clock (s : State) (m : Byte) :
    (s.setMask m).clock = s.clock := rfl
@[simp] theorem State.setMask_startDue (s : State) (m : Byte) :
    (s.setMask m).startDue = s.startDue := rfl
@[simp] theorem State.setMask_port (s : State) (m : Byte) :
    (s.setMask m).port = s.port := rfl
@[simp] theorem State.setMask_commands (s : State) (m : Byte) :
    (s.setMask m).commands = s.commands := rfl
@[simp] theorem State.setMask_supervisor (s : State) (m : Byte) :
    (s.setMask m).supervisor = s.supervisor := rfl
@[simp] theorem State.setMask_generators (s : State) (m : Byte) :
    (s.setMask m).generators = s.generators := rfl
@[simp] theorem State.setMask_points (s : State) (m : Byte) :
    (s.setMask m).points = s.points := rfl
@[simp] theorem State.setMask_outstations (s : State) (m : Byte) :
    (s.setMask m).outstations = s.outstations := rfl
@[simp] theorem State.setMask_groups (s : State) (m : Byte) :
    (s.setMask m).groups = s.groups := rfl
@[simp] theorem State.setMask_unmapped (s : State) (m : Byte) :
    (s.setMask m).unmapped = s.unmapped := rfl
@[simp] theorem State.setMask_staleLimit (s : State) (m : Byte) :
    (s.setMask m).staleLimit = s.staleLimit := rfl
@[simp] theorem State.setMask_alarms (s : State) (m : Byte) :
    (s.setMask m).alarms = s.alarms := rfl
@[simp] theorem State.setMask_lamps (s : State) (m : Byte) :
    (s.setMask m).lamps = s.lamps := rfl
@[simp] theorem State.setMask_panel (s : State) (m : Byte) :
    (s.setMask m).panel = s.panel := rfl
@[simp] theorem State.setMask_pending (s : State) (m : Byte) :
    (s.setMask m).pending = s.pending := rfl

/-! ### setGroup: GROUP SET -/

@[simp] theorem State.setGroup_clock (s : State) (g : Nat) (on : Bool) :
    (s.setGroup g on).clock = s.clock := rfl
@[simp] theorem State.setGroup_startDue (s : State) (g : Nat) (on : Bool) :
    (s.setGroup g on).startDue = s.startDue := rfl
@[simp] theorem State.setGroup_port (s : State) (g : Nat) (on : Bool) :
    (s.setGroup g on).port = s.port := rfl
@[simp] theorem State.setGroup_commands (s : State) (g : Nat) (on : Bool) :
    (s.setGroup g on).commands = s.commands := rfl
@[simp] theorem State.setGroup_supervisor (s : State) (g : Nat) (on : Bool) :
    (s.setGroup g on).supervisor = s.supervisor := rfl
@[simp] theorem State.setGroup_generators (s : State) (g : Nat) (on : Bool) :
    (s.setGroup g on).generators = s.generators := rfl
@[simp] theorem State.setGroup_points (s : State) (g : Nat) (on : Bool) :
    (s.setGroup g on).points = s.points := rfl
@[simp] theorem State.setGroup_outstations (s : State) (g : Nat) (on : Bool) :
    (s.setGroup g on).outstations = s.outstations := rfl
@[simp] theorem State.setGroup_unmapped (s : State) (g : Nat) (on : Bool) :
    (s.setGroup g on).unmapped = s.unmapped := rfl
@[simp] theorem State.setGroup_staleLimit (s : State) (g : Nat) (on : Bool) :
    (s.setGroup g on).staleLimit = s.staleLimit := rfl
@[simp] theorem State.setGroup_alarms (s : State) (g : Nat) (on : Bool) :
    (s.setGroup g on).alarms = s.alarms := rfl
@[simp] theorem State.setGroup_panel (s : State) (g : Nat) (on : Bool) :
    (s.setGroup g on).panel = s.panel := rfl
@[simp] theorem State.setGroup_reports (s : State) (g : Nat) (on : Bool) :
    (s.setGroup g on).reports = s.reports := rfl
@[simp] theorem State.setGroup_pending (s : State) (g : Nat) (on : Bool) :
    (s.setGroup g on).pending = s.pending := rfl

/-! ### losePoint: an outstation losing a point -/

@[simp] theorem State.losePoint_clock (s : State) (n : Nat) :
    (s.losePoint n).clock = s.clock := rfl
@[simp] theorem State.losePoint_startDue (s : State) (n : Nat) :
    (s.losePoint n).startDue = s.startDue := rfl
@[simp] theorem State.losePoint_port (s : State) (n : Nat) :
    (s.losePoint n).port = s.port := rfl
@[simp] theorem State.losePoint_commands (s : State) (n : Nat) :
    (s.losePoint n).commands = s.commands := rfl
@[simp] theorem State.losePoint_supervisor (s : State) (n : Nat) :
    (s.losePoint n).supervisor = s.supervisor := rfl
@[simp] theorem State.losePoint_generators (s : State) (n : Nat) :
    (s.losePoint n).generators = s.generators := rfl
@[simp] theorem State.losePoint_points (s : State) (n : Nat) :
    (s.losePoint n).points = s.points := rfl
@[simp] theorem State.losePoint_groups (s : State) (n : Nat) :
    (s.losePoint n).groups = s.groups := rfl
@[simp] theorem State.losePoint_unmapped (s : State) (n : Nat) :
    (s.losePoint n).unmapped = s.unmapped := rfl
@[simp] theorem State.losePoint_staleLimit (s : State) (n : Nat) :
    (s.losePoint n).staleLimit = s.staleLimit := rfl
@[simp] theorem State.losePoint_alarms (s : State) (n : Nat) :
    (s.losePoint n).alarms = s.alarms := rfl
@[simp] theorem State.losePoint_lamps (s : State) (n : Nat) :
    (s.losePoint n).lamps = s.lamps := rfl
@[simp] theorem State.losePoint_panel (s : State) (n : Nat) :
    (s.losePoint n).panel = s.panel := rfl
@[simp] theorem State.losePoint_reports (s : State) (n : Nat) :
    (s.losePoint n).reports = s.reports := rfl
@[simp] theorem State.losePoint_pending (s : State) (n : Nat) :
    (s.losePoint n).pending = s.pending := rfl

/-! ### endHoldWith: HOLD ended with its record -/

@[simp] theorem State.endHoldWith_clock (s : State) (c : HoldEnd) :
    (s.endHoldWith c).clock = s.clock := rfl
@[simp] theorem State.endHoldWith_startDue (s : State) (c : HoldEnd) :
    (s.endHoldWith c).startDue = s.startDue := rfl
@[simp] theorem State.endHoldWith_port (s : State) (c : HoldEnd) :
    (s.endHoldWith c).port = s.port := rfl
@[simp] theorem State.endHoldWith_commands (s : State) (c : HoldEnd) :
    (s.endHoldWith c).commands = s.commands := rfl
@[simp] theorem State.endHoldWith_supervisor (s : State) (c : HoldEnd) :
    (s.endHoldWith c).supervisor = s.supervisor := rfl
@[simp] theorem State.endHoldWith_generators (s : State) (c : HoldEnd) :
    (s.endHoldWith c).generators = s.generators := rfl
@[simp] theorem State.endHoldWith_points (s : State) (c : HoldEnd) :
    (s.endHoldWith c).points = s.points := rfl
@[simp] theorem State.endHoldWith_outstations (s : State) (c : HoldEnd) :
    (s.endHoldWith c).outstations = s.outstations := rfl
@[simp] theorem State.endHoldWith_groups (s : State) (c : HoldEnd) :
    (s.endHoldWith c).groups = s.groups := rfl
@[simp] theorem State.endHoldWith_unmapped (s : State) (c : HoldEnd) :
    (s.endHoldWith c).unmapped = s.unmapped := rfl
@[simp] theorem State.endHoldWith_staleLimit (s : State) (c : HoldEnd) :
    (s.endHoldWith c).staleLimit = s.staleLimit := rfl
@[simp] theorem State.endHoldWith_alarms (s : State) (c : HoldEnd) :
    (s.endHoldWith c).alarms = s.alarms := rfl
@[simp] theorem State.endHoldWith_panel (s : State) (c : HoldEnd) :
    (s.endHoldWith c).panel = s.panel := rfl
@[simp] theorem State.endHoldWith_pending (s : State) (c : HoldEnd) :
    (s.endHoldWith c).pending = s.pending := rfl

/-! ### beginSweep: a sweep begun -/

@[simp] theorem State.beginSweep_clock (s : State) (t : Byte) (b : Nat) :
    (s.beginSweep t b).clock = s.clock := rfl
@[simp] theorem State.beginSweep_startDue (s : State) (t : Byte) (b : Nat) :
    (s.beginSweep t b).startDue = s.startDue := rfl
@[simp] theorem State.beginSweep_port (s : State) (t : Byte) (b : Nat) :
    (s.beginSweep t b).port = s.port := rfl
@[simp] theorem State.beginSweep_supervisor (s : State) (t : Byte) (b : Nat) :
    (s.beginSweep t b).supervisor = s.supervisor := rfl
@[simp] theorem State.beginSweep_generators (s : State) (t : Byte) (b : Nat) :
    (s.beginSweep t b).generators = s.generators := rfl
@[simp] theorem State.beginSweep_points (s : State) (t : Byte) (b : Nat) :
    (s.beginSweep t b).points = s.points := rfl
@[simp] theorem State.beginSweep_outstations (s : State) (t : Byte) (b : Nat) :
    (s.beginSweep t b).outstations = s.outstations := rfl
@[simp] theorem State.beginSweep_groups (s : State) (t : Byte) (b : Nat) :
    (s.beginSweep t b).groups = s.groups := rfl
@[simp] theorem State.beginSweep_unmapped (s : State) (t : Byte) (b : Nat) :
    (s.beginSweep t b).unmapped = s.unmapped := rfl
@[simp] theorem State.beginSweep_staleLimit (s : State) (t : Byte) (b : Nat) :
    (s.beginSweep t b).staleLimit = s.staleLimit := rfl
@[simp] theorem State.beginSweep_alarms (s : State) (t : Byte) (b : Nat) :
    (s.beginSweep t b).alarms = s.alarms := rfl
@[simp] theorem State.beginSweep_panel (s : State) (t : Byte) (b : Nat) :
    (s.beginSweep t b).panel = s.panel := rfl
@[simp] theorem State.beginSweep_reports (s : State) (t : Byte) (b : Nat) :
    (s.beginSweep t b).reports = s.reports := rfl
@[simp] theorem State.beginSweep_pending (s : State) (t : Byte) (b : Nat) :
    (s.beginSweep t b).pending = s.pending := rfl

/-! ### hunt: the receiver hunting -/

@[simp] theorem State.hunt_clock (s : State) :
    (s.hunt).clock = s.clock := rfl
@[simp] theorem State.hunt_startDue (s : State) :
    (s.hunt).startDue = s.startDue := rfl
@[simp] theorem State.hunt_commands (s : State) :
    (s.hunt).commands = s.commands := rfl
@[simp] theorem State.hunt_supervisor (s : State) :
    (s.hunt).supervisor = s.supervisor := rfl
@[simp] theorem State.hunt_generators (s : State) :
    (s.hunt).generators = s.generators := rfl
@[simp] theorem State.hunt_points (s : State) :
    (s.hunt).points = s.points := rfl
@[simp] theorem State.hunt_outstations (s : State) :
    (s.hunt).outstations = s.outstations := rfl
@[simp] theorem State.hunt_groups (s : State) :
    (s.hunt).groups = s.groups := rfl
@[simp] theorem State.hunt_unmapped (s : State) :
    (s.hunt).unmapped = s.unmapped := rfl
@[simp] theorem State.hunt_staleLimit (s : State) :
    (s.hunt).staleLimit = s.staleLimit := rfl
@[simp] theorem State.hunt_alarms (s : State) :
    (s.hunt).alarms = s.alarms := rfl
@[simp] theorem State.hunt_lamps (s : State) :
    (s.hunt).lamps = s.lamps := rfl
@[simp] theorem State.hunt_panel (s : State) :
    (s.hunt).panel = s.panel := rfl
@[simp] theorem State.hunt_reports (s : State) :
    (s.hunt).reports = s.reports := rfl
@[simp] theorem State.hunt_pending (s : State) :
    (s.hunt).pending = s.pending := rfl

/-! ### withReceiver: the receiver changed -/

@[simp] theorem State.withReceiver_clock (s : State) (r : Receiver) :
    (s.withReceiver r).clock = s.clock := rfl
@[simp] theorem State.withReceiver_startDue (s : State) (r : Receiver) :
    (s.withReceiver r).startDue = s.startDue := rfl
@[simp] theorem State.withReceiver_commands (s : State) (r : Receiver) :
    (s.withReceiver r).commands = s.commands := rfl
@[simp] theorem State.withReceiver_supervisor (s : State) (r : Receiver) :
    (s.withReceiver r).supervisor = s.supervisor := rfl
@[simp] theorem State.withReceiver_generators (s : State) (r : Receiver) :
    (s.withReceiver r).generators = s.generators := rfl
@[simp] theorem State.withReceiver_points (s : State) (r : Receiver) :
    (s.withReceiver r).points = s.points := rfl
@[simp] theorem State.withReceiver_outstations (s : State) (r : Receiver) :
    (s.withReceiver r).outstations = s.outstations := rfl
@[simp] theorem State.withReceiver_groups (s : State) (r : Receiver) :
    (s.withReceiver r).groups = s.groups := rfl
@[simp] theorem State.withReceiver_unmapped (s : State) (r : Receiver) :
    (s.withReceiver r).unmapped = s.unmapped := rfl
@[simp] theorem State.withReceiver_staleLimit (s : State) (r : Receiver) :
    (s.withReceiver r).staleLimit = s.staleLimit := rfl
@[simp] theorem State.withReceiver_alarms (s : State) (r : Receiver) :
    (s.withReceiver r).alarms = s.alarms := rfl
@[simp] theorem State.withReceiver_lamps (s : State) (r : Receiver) :
    (s.withReceiver r).lamps = s.lamps := rfl
@[simp] theorem State.withReceiver_panel (s : State) (r : Receiver) :
    (s.withReceiver r).panel = s.panel := rfl
@[simp] theorem State.withReceiver_reports (s : State) (r : Receiver) :
    (s.withReceiver r).reports = s.reports := rfl
@[simp] theorem State.withReceiver_pending (s : State) (r : Receiver) :
    (s.withReceiver r).pending = s.pending := rfl

/-! ### countReturned: a returned frame counted -/

@[simp] theorem State.countReturned_clock (s : State) :
    (s.countReturned).clock = s.clock := rfl
@[simp] theorem State.countReturned_startDue (s : State) :
    (s.countReturned).startDue = s.startDue := rfl
@[simp] theorem State.countReturned_commands (s : State) :
    (s.countReturned).commands = s.commands := rfl
@[simp] theorem State.countReturned_supervisor (s : State) :
    (s.countReturned).supervisor = s.supervisor := rfl
@[simp] theorem State.countReturned_generators (s : State) :
    (s.countReturned).generators = s.generators := rfl
@[simp] theorem State.countReturned_points (s : State) :
    (s.countReturned).points = s.points := rfl
@[simp] theorem State.countReturned_outstations (s : State) :
    (s.countReturned).outstations = s.outstations := rfl
@[simp] theorem State.countReturned_groups (s : State) :
    (s.countReturned).groups = s.groups := rfl
@[simp] theorem State.countReturned_unmapped (s : State) :
    (s.countReturned).unmapped = s.unmapped := rfl
@[simp] theorem State.countReturned_staleLimit (s : State) :
    (s.countReturned).staleLimit = s.staleLimit := rfl
@[simp] theorem State.countReturned_alarms (s : State) :
    (s.countReturned).alarms = s.alarms := rfl
@[simp] theorem State.countReturned_lamps (s : State) :
    (s.countReturned).lamps = s.lamps := rfl
@[simp] theorem State.countReturned_panel (s : State) :
    (s.countReturned).panel = s.panel := rfl
@[simp] theorem State.countReturned_reports (s : State) :
    (s.countReturned).reports = s.reports := rfl
@[simp] theorem State.countReturned_pending (s : State) :
    (s.countReturned).pending = s.pending := rfl

/-! ### countForeign: a foreign frame counted -/

@[simp] theorem State.countForeign_clock (s : State) :
    (s.countForeign).clock = s.clock := rfl
@[simp] theorem State.countForeign_startDue (s : State) :
    (s.countForeign).startDue = s.startDue := rfl
@[simp] theorem State.countForeign_commands (s : State) :
    (s.countForeign).commands = s.commands := rfl
@[simp] theorem State.countForeign_supervisor (s : State) :
    (s.countForeign).supervisor = s.supervisor := rfl
@[simp] theorem State.countForeign_generators (s : State) :
    (s.countForeign).generators = s.generators := rfl
@[simp] theorem State.countForeign_points (s : State) :
    (s.countForeign).points = s.points := rfl
@[simp] theorem State.countForeign_outstations (s : State) :
    (s.countForeign).outstations = s.outstations := rfl
@[simp] theorem State.countForeign_groups (s : State) :
    (s.countForeign).groups = s.groups := rfl
@[simp] theorem State.countForeign_unmapped (s : State) :
    (s.countForeign).unmapped = s.unmapped := rfl
@[simp] theorem State.countForeign_staleLimit (s : State) :
    (s.countForeign).staleLimit = s.staleLimit := rfl
@[simp] theorem State.countForeign_alarms (s : State) :
    (s.countForeign).alarms = s.alarms := rfl
@[simp] theorem State.countForeign_lamps (s : State) :
    (s.countForeign).lamps = s.lamps := rfl
@[simp] theorem State.countForeign_panel (s : State) :
    (s.countForeign).panel = s.panel := rfl
@[simp] theorem State.countForeign_reports (s : State) :
    (s.countForeign).reports = s.reports := rfl
@[simp] theorem State.countForeign_pending (s : State) :
    (s.countForeign).pending = s.pending := rfl

/-! ### received: a good frame received -/

@[simp] theorem State.received_clock (s : State) :
    (s.received).clock = s.clock := rfl
@[simp] theorem State.received_startDue (s : State) :
    (s.received).startDue = s.startDue := rfl
@[simp] theorem State.received_commands (s : State) :
    (s.received).commands = s.commands := rfl
@[simp] theorem State.received_supervisor (s : State) :
    (s.received).supervisor = s.supervisor := rfl
@[simp] theorem State.received_generators (s : State) :
    (s.received).generators = s.generators := rfl
@[simp] theorem State.received_points (s : State) :
    (s.received).points = s.points := rfl
@[simp] theorem State.received_outstations (s : State) :
    (s.received).outstations = s.outstations := rfl
@[simp] theorem State.received_groups (s : State) :
    (s.received).groups = s.groups := rfl
@[simp] theorem State.received_unmapped (s : State) :
    (s.received).unmapped = s.unmapped := rfl
@[simp] theorem State.received_staleLimit (s : State) :
    (s.received).staleLimit = s.staleLimit := rfl
@[simp] theorem State.received_alarms (s : State) :
    (s.received).alarms = s.alarms := rfl
@[simp] theorem State.received_lamps (s : State) :
    (s.received).lamps = s.lamps := rfl
@[simp] theorem State.received_panel (s : State) :
    (s.received).panel = s.panel := rfl
@[simp] theorem State.received_reports (s : State) :
    (s.received).reports = s.reports := rfl
@[simp] theorem State.received_pending (s : State) :
    (s.received).pending = s.pending := rfl

/-! ### localServed: a local grant -/

@[simp] theorem State.localServed_clock (s : State) :
    (s.localServed).clock = s.clock := rfl
@[simp] theorem State.localServed_startDue (s : State) :
    (s.localServed).startDue = s.startDue := rfl
@[simp] theorem State.localServed_commands (s : State) :
    (s.localServed).commands = s.commands := rfl
@[simp] theorem State.localServed_supervisor (s : State) :
    (s.localServed).supervisor = s.supervisor := rfl
@[simp] theorem State.localServed_generators (s : State) :
    (s.localServed).generators = s.generators := rfl
@[simp] theorem State.localServed_points (s : State) :
    (s.localServed).points = s.points := rfl
@[simp] theorem State.localServed_outstations (s : State) :
    (s.localServed).outstations = s.outstations := rfl
@[simp] theorem State.localServed_groups (s : State) :
    (s.localServed).groups = s.groups := rfl
@[simp] theorem State.localServed_unmapped (s : State) :
    (s.localServed).unmapped = s.unmapped := rfl
@[simp] theorem State.localServed_staleLimit (s : State) :
    (s.localServed).staleLimit = s.staleLimit := rfl
@[simp] theorem State.localServed_alarms (s : State) :
    (s.localServed).alarms = s.alarms := rfl
@[simp] theorem State.localServed_lamps (s : State) :
    (s.localServed).lamps = s.lamps := rfl
@[simp] theorem State.localServed_panel (s : State) :
    (s.localServed).panel = s.panel := rfl
@[simp] theorem State.localServed_reports (s : State) :
    (s.localServed).reports = s.reports := rfl
@[simp] theorem State.localServed_pending (s : State) :
    (s.localServed).pending = s.pending := rfl

/-! ### transmit: a transmission begun -/

@[simp] theorem State.transmit_clock (s : State) (f : Frame) :
    (s.transmit f).clock = s.clock := rfl
@[simp] theorem State.transmit_startDue (s : State) (f : Frame) :
    (s.transmit f).startDue = s.startDue := rfl
@[simp] theorem State.transmit_commands (s : State) (f : Frame) :
    (s.transmit f).commands = s.commands := rfl
@[simp] theorem State.transmit_supervisor (s : State) (f : Frame) :
    (s.transmit f).supervisor = s.supervisor := rfl
@[simp] theorem State.transmit_generators (s : State) (f : Frame) :
    (s.transmit f).generators = s.generators := rfl
@[simp] theorem State.transmit_points (s : State) (f : Frame) :
    (s.transmit f).points = s.points := rfl
@[simp] theorem State.transmit_outstations (s : State) (f : Frame) :
    (s.transmit f).outstations = s.outstations := rfl
@[simp] theorem State.transmit_groups (s : State) (f : Frame) :
    (s.transmit f).groups = s.groups := rfl
@[simp] theorem State.transmit_unmapped (s : State) (f : Frame) :
    (s.transmit f).unmapped = s.unmapped := rfl
@[simp] theorem State.transmit_staleLimit (s : State) (f : Frame) :
    (s.transmit f).staleLimit = s.staleLimit := rfl
@[simp] theorem State.transmit_alarms (s : State) (f : Frame) :
    (s.transmit f).alarms = s.alarms := rfl
@[simp] theorem State.transmit_lamps (s : State) (f : Frame) :
    (s.transmit f).lamps = s.lamps := rfl
@[simp] theorem State.transmit_panel (s : State) (f : Frame) :
    (s.transmit f).panel = s.panel := rfl
@[simp] theorem State.transmit_reports (s : State) (f : Frame) :
    (s.transmit f).reports = s.reports := rfl
@[simp] theorem State.transmit_pending (s : State) (f : Frame) :
    (s.transmit f).pending = s.pending := rfl

/-! ### grantThrough: a through grant -/

@[simp] theorem State.grantThrough_clock (s : State) (f : Frame) (l : List Frame) :
    (s.grantThrough f l).clock = s.clock := rfl
@[simp] theorem State.grantThrough_startDue (s : State) (f : Frame) (l : List Frame) :
    (s.grantThrough f l).startDue = s.startDue := rfl
@[simp] theorem State.grantThrough_commands (s : State) (f : Frame) (l : List Frame) :
    (s.grantThrough f l).commands = s.commands := rfl
@[simp] theorem State.grantThrough_supervisor (s : State) (f : Frame) (l : List Frame) :
    (s.grantThrough f l).supervisor = s.supervisor := rfl
@[simp] theorem State.grantThrough_generators (s : State) (f : Frame) (l : List Frame) :
    (s.grantThrough f l).generators = s.generators := rfl
@[simp] theorem State.grantThrough_points (s : State) (f : Frame) (l : List Frame) :
    (s.grantThrough f l).points = s.points := rfl
@[simp] theorem State.grantThrough_outstations (s : State) (f : Frame) (l : List Frame) :
    (s.grantThrough f l).outstations = s.outstations := rfl
@[simp] theorem State.grantThrough_groups (s : State) (f : Frame) (l : List Frame) :
    (s.grantThrough f l).groups = s.groups := rfl
@[simp] theorem State.grantThrough_unmapped (s : State) (f : Frame) (l : List Frame) :
    (s.grantThrough f l).unmapped = s.unmapped := rfl
@[simp] theorem State.grantThrough_staleLimit (s : State) (f : Frame) (l : List Frame) :
    (s.grantThrough f l).staleLimit = s.staleLimit := rfl
@[simp] theorem State.grantThrough_alarms (s : State) (f : Frame) (l : List Frame) :
    (s.grantThrough f l).alarms = s.alarms := rfl
@[simp] theorem State.grantThrough_lamps (s : State) (f : Frame) (l : List Frame) :
    (s.grantThrough f l).lamps = s.lamps := rfl
@[simp] theorem State.grantThrough_panel (s : State) (f : Frame) (l : List Frame) :
    (s.grantThrough f l).panel = s.panel := rfl
@[simp] theorem State.grantThrough_reports (s : State) (f : Frame) (l : List Frame) :
    (s.grantThrough f l).reports = s.reports := rfl
@[simp] theorem State.grantThrough_pending (s : State) (f : Frame) (l : List Frame) :
    (s.grantThrough f l).pending = s.pending := rfl

/-! ### grantReply: a reply granted -/

@[simp] theorem State.grantReply_clock (s : State) (f : Frame) (l : List Frame) :
    (s.grantReply f l).clock = s.clock := rfl
@[simp] theorem State.grantReply_startDue (s : State) (f : Frame) (l : List Frame) :
    (s.grantReply f l).startDue = s.startDue := rfl
@[simp] theorem State.grantReply_supervisor (s : State) (f : Frame) (l : List Frame) :
    (s.grantReply f l).supervisor = s.supervisor := rfl
@[simp] theorem State.grantReply_generators (s : State) (f : Frame) (l : List Frame) :
    (s.grantReply f l).generators = s.generators := rfl
@[simp] theorem State.grantReply_points (s : State) (f : Frame) (l : List Frame) :
    (s.grantReply f l).points = s.points := rfl
@[simp] theorem State.grantReply_outstations (s : State) (f : Frame) (l : List Frame) :
    (s.grantReply f l).outstations = s.outstations := rfl
@[simp] theorem State.grantReply_groups (s : State) (f : Frame) (l : List Frame) :
    (s.grantReply f l).groups = s.groups := rfl
@[simp] theorem State.grantReply_unmapped (s : State) (f : Frame) (l : List Frame) :
    (s.grantReply f l).unmapped = s.unmapped := rfl
@[simp] theorem State.grantReply_staleLimit (s : State) (f : Frame) (l : List Frame) :
    (s.grantReply f l).staleLimit = s.staleLimit := rfl
@[simp] theorem State.grantReply_alarms (s : State) (f : Frame) (l : List Frame) :
    (s.grantReply f l).alarms = s.alarms := rfl
@[simp] theorem State.grantReply_lamps (s : State) (f : Frame) (l : List Frame) :
    (s.grantReply f l).lamps = s.lamps := rfl
@[simp] theorem State.grantReply_panel (s : State) (f : Frame) (l : List Frame) :
    (s.grantReply f l).panel = s.panel := rfl
@[simp] theorem State.grantReply_reports (s : State) (f : Frame) (l : List Frame) :
    (s.grantReply f l).reports = s.reports := rfl
@[simp] theorem State.grantReply_pending (s : State) (f : Frame) (l : List Frame) :
    (s.grantReply f l).pending = s.pending := rfl

/-! ### grantEvents: an EVENTS frame granted -/

@[simp] theorem State.grantEvents_clock (s : State) :
    (s.grantEvents).clock = s.clock := rfl
@[simp] theorem State.grantEvents_startDue (s : State) :
    (s.grantEvents).startDue = s.startDue := rfl
@[simp] theorem State.grantEvents_commands (s : State) :
    (s.grantEvents).commands = s.commands := rfl
@[simp] theorem State.grantEvents_supervisor (s : State) :
    (s.grantEvents).supervisor = s.supervisor := rfl
@[simp] theorem State.grantEvents_generators (s : State) :
    (s.grantEvents).generators = s.generators := rfl
@[simp] theorem State.grantEvents_points (s : State) :
    (s.grantEvents).points = s.points := rfl
@[simp] theorem State.grantEvents_outstations (s : State) :
    (s.grantEvents).outstations = s.outstations := rfl
@[simp] theorem State.grantEvents_groups (s : State) :
    (s.grantEvents).groups = s.groups := rfl
@[simp] theorem State.grantEvents_unmapped (s : State) :
    (s.grantEvents).unmapped = s.unmapped := rfl
@[simp] theorem State.grantEvents_staleLimit (s : State) :
    (s.grantEvents).staleLimit = s.staleLimit := rfl
@[simp] theorem State.grantEvents_alarms (s : State) :
    (s.grantEvents).alarms = s.alarms := rfl
@[simp] theorem State.grantEvents_lamps (s : State) :
    (s.grantEvents).lamps = s.lamps := rfl
@[simp] theorem State.grantEvents_panel (s : State) :
    (s.grantEvents).panel = s.panel := rfl
@[simp] theorem State.grantEvents_pending (s : State) :
    (s.grantEvents).pending = s.pending := rfl

/-! ### placeReply: a reply placed -/

@[simp] theorem State.placeReply_clock (s : State) (f : Frame) :
    (s.placeReply f).clock = s.clock := rfl
@[simp] theorem State.placeReply_startDue (s : State) (f : Frame) :
    (s.placeReply f).startDue = s.startDue := rfl
@[simp] theorem State.placeReply_port (s : State) (f : Frame) :
    (s.placeReply f).port = s.port := rfl
@[simp] theorem State.placeReply_supervisor (s : State) (f : Frame) :
    (s.placeReply f).supervisor = s.supervisor := rfl
@[simp] theorem State.placeReply_generators (s : State) (f : Frame) :
    (s.placeReply f).generators = s.generators := rfl
@[simp] theorem State.placeReply_points (s : State) (f : Frame) :
    (s.placeReply f).points = s.points := rfl
@[simp] theorem State.placeReply_outstations (s : State) (f : Frame) :
    (s.placeReply f).outstations = s.outstations := rfl
@[simp] theorem State.placeReply_groups (s : State) (f : Frame) :
    (s.placeReply f).groups = s.groups := rfl
@[simp] theorem State.placeReply_unmapped (s : State) (f : Frame) :
    (s.placeReply f).unmapped = s.unmapped := rfl
@[simp] theorem State.placeReply_staleLimit (s : State) (f : Frame) :
    (s.placeReply f).staleLimit = s.staleLimit := rfl
@[simp] theorem State.placeReply_alarms (s : State) (f : Frame) :
    (s.placeReply f).alarms = s.alarms := rfl
@[simp] theorem State.placeReply_lamps (s : State) (f : Frame) :
    (s.placeReply f).lamps = s.lamps := rfl
@[simp] theorem State.placeReply_panel (s : State) (f : Frame) :
    (s.placeReply f).panel = s.panel := rfl
@[simp] theorem State.placeReply_reports (s : State) (f : Frame) :
    (s.placeReply f).reports = s.reports := rfl
@[simp] theorem State.placeReply_pending (s : State) (f : Frame) :
    (s.placeReply f).pending = s.pending := rfl

/-! ### dropCommand: a command dropped -/

@[simp] theorem State.dropCommand_clock (s : State) :
    (s.dropCommand).clock = s.clock := rfl
@[simp] theorem State.dropCommand_startDue (s : State) :
    (s.dropCommand).startDue = s.startDue := rfl
@[simp] theorem State.dropCommand_port (s : State) :
    (s.dropCommand).port = s.port := rfl
@[simp] theorem State.dropCommand_supervisor (s : State) :
    (s.dropCommand).supervisor = s.supervisor := rfl
@[simp] theorem State.dropCommand_generators (s : State) :
    (s.dropCommand).generators = s.generators := rfl
@[simp] theorem State.dropCommand_points (s : State) :
    (s.dropCommand).points = s.points := rfl
@[simp] theorem State.dropCommand_outstations (s : State) :
    (s.dropCommand).outstations = s.outstations := rfl
@[simp] theorem State.dropCommand_groups (s : State) :
    (s.dropCommand).groups = s.groups := rfl
@[simp] theorem State.dropCommand_unmapped (s : State) :
    (s.dropCommand).unmapped = s.unmapped := rfl
@[simp] theorem State.dropCommand_staleLimit (s : State) :
    (s.dropCommand).staleLimit = s.staleLimit := rfl
@[simp] theorem State.dropCommand_alarms (s : State) :
    (s.dropCommand).alarms = s.alarms := rfl
@[simp] theorem State.dropCommand_lamps (s : State) :
    (s.dropCommand).lamps = s.lamps := rfl
@[simp] theorem State.dropCommand_panel (s : State) :
    (s.dropCommand).panel = s.panel := rfl
@[simp] theorem State.dropCommand_pending (s : State) :
    (s.dropCommand).pending = s.pending := rfl

/-! ### withPending: the command queue set -/

@[simp] theorem State.withPending_clock (s : State) (q : List Instr) :
    (s.withPending q).clock = s.clock := rfl
@[simp] theorem State.withPending_startDue (s : State) (q : List Instr) :
    (s.withPending q).startDue = s.startDue := rfl
@[simp] theorem State.withPending_port (s : State) (q : List Instr) :
    (s.withPending q).port = s.port := rfl
@[simp] theorem State.withPending_commands (s : State) (q : List Instr) :
    (s.withPending q).commands = s.commands := rfl
@[simp] theorem State.withPending_supervisor (s : State) (q : List Instr) :
    (s.withPending q).supervisor = s.supervisor := rfl
@[simp] theorem State.withPending_generators (s : State) (q : List Instr) :
    (s.withPending q).generators = s.generators := rfl
@[simp] theorem State.withPending_points (s : State) (q : List Instr) :
    (s.withPending q).points = s.points := rfl
@[simp] theorem State.withPending_outstations (s : State) (q : List Instr) :
    (s.withPending q).outstations = s.outstations := rfl
@[simp] theorem State.withPending_groups (s : State) (q : List Instr) :
    (s.withPending q).groups = s.groups := rfl
@[simp] theorem State.withPending_unmapped (s : State) (q : List Instr) :
    (s.withPending q).unmapped = s.unmapped := rfl
@[simp] theorem State.withPending_staleLimit (s : State) (q : List Instr) :
    (s.withPending q).staleLimit = s.staleLimit := rfl
@[simp] theorem State.withPending_alarms (s : State) (q : List Instr) :
    (s.withPending q).alarms = s.alarms := rfl
@[simp] theorem State.withPending_lamps (s : State) (q : List Instr) :
    (s.withPending q).lamps = s.lamps := rfl
@[simp] theorem State.withPending_panel (s : State) (q : List Instr) :
    (s.withPending q).panel = s.panel := rfl
@[simp] theorem State.withPending_reports (s : State) (q : List Instr) :
    (s.withPending q).reports = s.reports := rfl

end Sys2Proof.Machine
end

