-- ==== Sys2Proof/Laws/Ops.lean ====
section
/-! SUPPORT. What the shared operations can do, said once: event records and condition latches, sorted tables,
the alarm side of the state, acknowledgements, quality return, forwarding. -/

namespace Sys2Proof.Machine

/-! ### Folds -/

/-- What every step of a fold leaves alone, the fold leaves alone. -/
theorem foldl_same {α β γ : Type} (g : β → γ) (f : β → α → β) (h : ∀ s a, g (f s a) = g s) :
    ∀ (l : List α) (s : β), g (l.foldl f s) = g s
  | [], _ => rfl
  | a :: l, s => by rw [List.foldl_cons, foldl_same g f h l, h]

/-- A reflexive and transitive relation that every step of a fold keeps, the fold keeps. -/
theorem foldl_related {α β : Type} (R : β → β → Prop) (refl : ∀ s, R s s)
    (trans : ∀ a b c, R a b → R b c → R a c) (f : β → α → β) (h : ∀ s a, R s (f s a)) :
    ∀ (l : List α) (s : β), R s (l.foldl f s)
  | [], s => refl s
  | a :: l, s => trans _ _ _ (h s a) (foldl_related R refl trans f h l (f s a))

/-! ### Tables of like records -/

theorem mapChannels_channel (s : State) (f : Nat → Channel → Channel) (c : Nat) (h : c < 256) :
    (s.mapChannels f).lamps.channels[c] = f c s.lamps.channels[c] := by
  simp [State.mapChannels]

@[simp] theorem mapChannels_holdEnds (s : State) (f : Nat → Channel → Channel) :
    (s.mapChannels f).lamps.holdEnds = s.lamps.holdEnds := rfl

@[simp] theorem mapChannels_sweep (s : State) (f : Nat → Channel → Channel) :
    (s.mapChannels f).lamps.sweep = s.lamps.sweep := rfl

@[simp] theorem mapChannels_senseDue (s : State) (f : Nat → Channel → Channel) :
    (s.mapChannels f).lamps.senseDue = s.lamps.senseDue := rfl

@[simp] theorem mapChannels_sampleNo (s : State) (f : Nat → Channel → Channel) :
    (s.mapChannels f).lamps.sampleNo = s.lamps.sampleNo := rfl

theorem modifyGroup_group (s : State) (g : Nat) (f : Group → Group) (i : Nat) (h : i < 16) :
    (s.modifyGroup g f).groups[i] = if i + 1 = g then f s.groups[i] else s.groups[i] := by
  simp [State.modifyGroup]

theorem modifyLine_line (s : State) (i j : Fin 8) (f : Line → Line) :
    (s.modifyLine i f).line j = if j = i then f (s.line j) else s.line j := by
  simp [State.modifyLine, State.line, Fin.ext_iff]

theorem Generators.modify_get (g : Generators) (c d : Cadence) (f : Generator → Generator) :
    (g.modify c f).get d = if d = c then f (g.get d) else g.get d := by
  cases c <;> cases d <;> rfl

theorem Generators.map_get (g : Generators) (f : Generator → Generator) (d : Cadence) :
    (g.map f).get d = f (g.get d) := by
  cases d <;> rfl

/-! ### Event records and condition latches -/

@[simp] theorem State.record_reports (s : State) (d : RecordData) :
    (s.record d).reports = s.reports.record s.stamp d := rfl

@[simp] theorem State.occur_reports (s : State) (c : Condition) :
    (s.occur c).reports = s.reports.occur s.stamp c := rfl

@[simp] theorem Reports.record_mask (st : Stamp) (d : RecordData) (r : Reports) :
    (r.record st d).mask = r.mask := by
  unfold Reports.record; split <;> rfl

@[simp] theorem Reports.occur_mask (st : Stamp) (c : Condition) (r : Reports) :
    (r.occur st c).mask = r.mask := by
  unfold Reports.occur Reports.latch; repeat' split <;> simp

/-- A record makes the queue longer by itself, or is lost to a full queue. -/
theorem Reports.record_queue (st : Stamp) (d : RecordData) (r : Reports) :
    (r.record st d).queue = if r.queue.length < 48 then r.queue ++ [⟨d, st⟩] else r.queue := by
  unfold Reports.record Reports.latch Config.maxEvents; split <;> rfl

/-- The events queue only grows, and stays within its 48 places, as records are made. -/
theorem Reports.record_fits (st : Stamp) (d : RecordData) (r : Reports)
    (h : r.queue.length ≤ 48 ∧ r.lost ≤ 255) :
    (r.record st d).queue.length ≤ 48 ∧ (r.record st d).lost ≤ 255 := by
  unfold Reports.record Reports.latch Config.maxEvents saturate
  split
  · simp; omega
  · simp; split <;> omega

theorem Reports.occur_fits (st : Stamp) (c : Condition) (r : Reports)
    (h : r.queue.length ≤ 48 ∧ r.lost ≤ 255) :
    (r.occur st c).queue.length ≤ 48 ∧ (r.occur st c).lost ≤ 255 := by
  unfold Reports.occur
  split
  · exact h
  split
  · exact Reports.record_fits _ _ _ h
  · exact h

/-- A record is made as R188 says. -/
theorem Reports.joined_eq : Reports.joined = Reports.record := by
  funext st d r
  unfold Reports.joined Reports.record Reports.latch Config.maxEvents saturate
  split <;> rfl

/-- A cause occurs as R192 says. -/
theorem Reports.caused_eq : Reports.caused = Reports.occur := by
  funext st c r
  have hbit : (1#8 <<< c.code) = c.bit := by cases c <;> rfl
  unfold Reports.caused Reports.occur
  simp only [Condition.isIn, hbit, Reports.joined_eq]
  by_cases h : r.latched.getLsbD c.code = true
  · simp [h]
  · simp [h, Reports.latch]

/-- The priorities with the horn enabled are those of R73. -/
theorem AlarmUnit.hornOn_eq : AlarmUnit.hornOn = AlarmUnit.enabled := by
  funext a p
  unfold AlarmUnit.hornOn AlarmUnit.enabled
  match p with
  | 0 => rfl
  | 1 => simp
  | 2 => simp
  | 3 => simp
  | n + 4 => simp

/-! ### The time base and the stamp -/

theorem now_congr {s t : State} (h : t.clock = s.clock) : t.now = s.now := by
  simp [State.now, h]

theorem stamp_congr {s t : State} (h : t.clock = s.clock) (h' : t.supervisor = s.supervisor) :
    t.stamp = s.stamp := by
  simp [State.stamp, State.now, h, h']

/-! ### The alarm side: points, counts and horn, holders, reports -/

/-- Nothing changes but the points, the alarm unit, the groups and the reports. -/
def AlarmSide (s t : State) : Prop :=
  t = { s with points := t.points, alarms := t.alarms, groups := t.groups, reports := t.reports }

namespace AlarmSide

theorem refl (s : State) : AlarmSide s s := rfl

theorem trans (a b c : State) (h : AlarmSide a b) (h' : AlarmSide b c) : AlarmSide a c := by
  unfold AlarmSide at *; rw [h', h]

variable {s t : State} (h : AlarmSide s t)
include h

theorem clock : t.clock = s.clock := by rw [h]
theorem startDue : t.startDue = s.startDue := by rw [h]
theorem port : t.port = s.port := by rw [h]
theorem commands : t.commands = s.commands := by rw [h]
theorem supervisor : t.supervisor = s.supervisor := by rw [h]
theorem generators : t.generators = s.generators := by rw [h]
theorem outstations : t.outstations = s.outstations := by rw [h]
theorem unmapped : t.unmapped = s.unmapped := by rw [h]
theorem staleLimit : t.staleLimit = s.staleLimit := by rw [h]
theorem lamps : t.lamps = s.lamps := by rw [h]
theorem panel : t.panel = s.panel := by rw [h]
theorem pending : t.pending = s.pending := by rw [h]
theorem stamp : t.stamp = s.stamp := stamp_congr h.clock h.supervisor

end AlarmSide

theorem transition_alarmSide (s : State) (e : PointEntry) (o n : AlarmRecord) (t : Transition)
    (c : Option Cause) : AlarmSide s (s.transition e o n t c) := rfl

theorem applyResult_alarmSide (s : State) (e : PointEntry) (a : AlarmRecord) (r : Option Cause) :
    AlarmSide s (s.applyResult e a r) := by
  unfold State.applyResult
  repeat' split
  all_goals first | exact AlarmSide.refl s | exact transition_alarmSide ..

theorem evaluatePoint_alarmSide (s : State) (k : Key) : AlarmSide s (s.evaluatePoint k) := by
  unfold State.evaluatePoint
  repeat' split
  all_goals first | exact AlarmSide.refl s | exact applyResult_alarmSide ..

theorem acknowledge_alarmSide (s : State) (k : Key) : AlarmSide s (s.acknowledge k) := by
  unfold State.acknowledge
  repeat' split
  all_goals first | exact AlarmSide.refl s | exact transition_alarmSide ..

theorem retire_alarmSide (s : State) (e : PointEntry) : AlarmSide s (s.retire e) := by
  unfold State.retire
  repeat' split
  all_goals rfl

theorem qualityReturn_alarmSide (s before : State) (scope : PointEntry → Bool) :
    AlarmSide s (s.qualityReturn before scope) :=
  foldl_related _ .refl .trans _ evaluatePoint_alarmSide _ _

theorem acknowledgeKeys_alarmSide (l : List Key) (s : State) :
    AlarmSide s (l.foldl (fun s k => s.acknowledge k) s) :=
  foldl_related _ .refl .trans _ acknowledge_alarmSide _ _

/-- The transition an evaluation makes is the one its table gives, or there is none. -/
theorem applyResult_cases (s : State) (e : PointEntry) (a : AlarmRecord) (r : Option Cause) :
    s.applyResult e a r =
      match (alarmAfter a r s.stamp).2 with
      | none => s
      | some t => s.transition e a (alarmAfter a r s.stamp).1 t
          (causeCarried t a (alarmAfter a r s.stamp).1) := by
  obtain ⟨st, cause, gen, raised⟩ := a
  cases st <;> cases r with
  | none => simp [State.applyResult, alarmAfter, causeCarried]
  | some c =>
    cases cause with
    | none => simp [State.applyResult, alarmAfter, causeCarried, AlarmRecord.raise]
    | some old =>
      cases old <;> cases c <;>
        simp [State.applyResult, alarmAfter, causeCarried, AlarmRecord.raise, sameSideDrop]

end Sys2Proof.Machine
end

