-- ==== Sys2Proof/Laws/Lamps.lean ====
section
/-! SUPPORT. What settling the lamps does: every channel shows what R89 gives it, and nothing else changes. -/

namespace Sys2Proof.Machine

/-- The quality of an entry depends on the outstations and supervision alone (R47). -/
theorem quality_congr {s t : State} (ho : t.outstations = s.outstations)
    (hv : t.supervisor = s.supervisor) (e : PointEntry) : t.quality e = s.quality e := by
  have hd : t.down = s.down := by funext n; unfold State.down State.outstation; rw [ho]
  have hf : t.staleFlag = s.staleFlag := by funext n; unfold State.staleFlag State.outstation; rw [ho]
  unfold State.quality
  rw [hd, hf, hv]

/-- The level and source of a channel depend on these blocks alone (R89). -/
theorem drive_congr {s t : State} {c : Nat} {ch ch' : Channel}
    (hn : t.port.station = s.port.station) (hl : t.panel.lampTest = s.panel.lampTest)
    (hh : t.lamps.holdEnds = s.lamps.holdEnds) (hw : t.lamps.sweep = s.lamps.sweep)
    (hp : t.points = s.points) (ho : t.outstations = s.outstations)
    (hv : t.supervisor = s.supervisor) (hg : t.groups = s.groups)
    (h1 : ch'.held = ch.held) (h2 : ch'.override = ch.override) (h3 : ch'.binding = ch.binding) :
    t.drive c ch' = s.drive c ch := by
  have hq : ∀ e, t.quality e = s.quality e := fun e => quality_congr ho hv e
  have hc : ∀ e k, t.compose e k = s.compose e k := by
    intro e k
    have hh : t.isHolder e = s.isHolder e := by unfold State.isHolder State.group; rw [hg]
    unfold State.compose
    rw [hq, hh]
  have hlow : t.lowerLevel c ch' = s.lowerLevel c ch := by
    have hpt : t.point = s.point := by funext k; unfold State.point; rw [hp]
    unfold State.lowerLevel
    rw [h2, h3, hpt]
    simp only [hc]
  unfold State.drive State.sweepLevel
  rw [hn, hl, hh, h1, hw, hlow]

/-- What a settled channel shows follows from the state before it was settled. -/
theorem settleLamps_channel (s : State) (c : Nat) (h : c < 256) :
    s.settleLamps.lamps.channels[c] = (s.lamps.channels[c]).driveAs (s.drive c s.lamps.channels[c]) :=
  mapChannels_channel s _ c h

theorem settleLamps_settled (s : State) : LampsSettled s.settleLamps := by
  intro c h
  rw [settleLamps_channel s c h]
  have : s.settleLamps.drive c ((s.lamps.channels[c]).driveAs (s.drive c s.lamps.channels[c])) =
      s.drive c s.lamps.channels[c] :=
    drive_congr rfl rfl rfl rfl rfl rfl rfl rfl rfl rfl rfl
  rw [this]
  rfl

/-- Settling keeps every field of a channel but what it shows. -/
theorem settleLamps_kept (s : State) (c : Nat) (h : c < 256) :
    (s.settleLamps.lamps.channels[c]).kept = (s.lamps.channels[c]).kept := by
  rw [settleLamps_channel]; rfl

/-- After settling a state whose Lamp Drive Unit stands as before, the unit is only driven anew. -/
theorem onlyRedriven_settleLamps {s u : State} (h : u.lamps = s.lamps) :
    OnlyRedriven s u.settleLamps := by
  refine ⟨?_, settleLamps_settled u, fun c hc => ?_⟩
  · simp [State.settleLamps, State.mapChannels, h]
  · rw [settleLamps_kept, h]

/-- Whether the lamps are settled depends on these blocks alone. -/
theorem LampsSettled.congr {s t : State} (hs : LampsSettled s) (hc : t.lamps.channels = s.lamps.channels)
    (hn : t.port.station = s.port.station) (hl : t.panel.lampTest = s.panel.lampTest)
    (hh : t.lamps.holdEnds = s.lamps.holdEnds) (hw : t.lamps.sweep = s.lamps.sweep)
    (hp : t.points = s.points) (ho : t.outstations = s.outstations)
    (hv : t.supervisor = s.supervisor) (hg : t.groups = s.groups) : LampsSettled t := by
  intro c h
  have : t.lamps.channels[c] = s.lamps.channels[c] := by simp only [hc]
  rw [this, hs c h]
  exact (drive_congr hn hl hh hw hp ho hv hg rfl rfl rfl).symm

/-- The Command Unit's part has no say in the lamps. -/
theorem OnlyRedriven.withCommands {s t : State} (h : OnlyRedriven s t) (u : CommandUnit) :
    OnlyRedriven s { t with commands := u } :=
  ⟨h.1, h.2.1.congr rfl rfl rfl rfl rfl rfl rfl rfl rfl, h.2.2⟩

theorem LampsSettled.withCommands {t : State} (h : LampsSettled t) (u : CommandUnit) :
    LampsSettled { t with commands := u } :=
  h.congr rfl rfl rfl rfl rfl rfl rfl rfl rfl

end Sys2Proof.Machine
end

