-- ==== Sys2Proof/Laws/Alarm.lean ====
section
/-! SUPPORT. What the Alarm Unit's sequences come to as a whole: the entries of a scope taken one after another
in key order (R58, R77, R79, R80), and the retirement of an entry (R13, R83). -/

namespace Sys2Proof.Machine

/-! ### Entries taken one after another -/

/-- No key stands twice. -/
def KeysDistinct (l : List PointEntry) : Prop := l.Pairwise fun a b => a.key ≠ b.key

theorem Key.lt_irrefl (a : Key) : a.lt a = false := by simp [Key.lt]

theorem Key.ne_of_lt {a b : Key} (h : a.lt b) : a ≠ b := by
  rintro rfl; simp [Key.lt_irrefl] at h

theorem KeysRise.distinct {s : State} (h : KeysRise s) : KeysDistinct s.points :=
  List.Pairwise.imp (fun hab => Key.ne_of_lt hab) h

theorem point_of_mem {s : State} (h : KeysDistinct s.points) {e : PointEntry} (he : e ∈ s.points) :
    s.point e.key = some e := by
  unfold State.point
  revert h he
  generalize s.points = l
  induction l with
  | nil => intro _ he; simp at he
  | cons x l ih =>
    intro h he
    have h' := List.pairwise_cons.1 h
    rcases List.mem_cons.1 he with rfl | he
    · simp
    · rw [List.find?_cons_of_neg]
      · exact ih h'.2 he
      · simpa using h'.1 e he

theorem modifyPoint_keys (k : Key) (f : PointEntry → PointEntry) (hf : ∀ e, (f e).key = e.key)
    (l : List PointEntry) : (modifyPoint k f l).map (·.key) = l.map (·.key) := by
  induction l with
  | nil => rfl
  | cons x l ih =>
    simp only [modifyPoint, List.map_cons] at ih ⊢
    rw [ih]
    split <;> simp [hf]

theorem keysDistinct_iff (l : List PointEntry) : KeysDistinct l ↔ (l.map (·.key)).Nodup := by
  unfold KeysDistinct List.Nodup
  rw [List.pairwise_map]

/-- Distinct entries of the table, each changed and each adding its own share to some part of the
state, one after another: every one of them is found as it stood before. -/
theorem foldl_entries {α : Type} (step : State → Key → State) (upd : PointEntry → PointEntry)
    (hk : ∀ e, (upd e).key = e.key) (proj : State → α) (share : α → PointEntry → α)
    (I : State → Prop)
    (h : ∀ s k e, I s → KeysDistinct s.points → s.point k = some e →
      (step s k).points = modifyPoint k upd s.points ∧ proj (step s k) = share (proj s) e ∧
        I (step s k)) :
    ∀ (es : List PointEntry) (s : State), I s → KeysDistinct s.points → KeysDistinct es →
      (∀ e ∈ es, e ∈ s.points) →
      proj ((es.map (·.key)).foldl step s) = es.foldl share (proj s) ∧
      ((es.map (·.key)).foldl step s).points =
        s.points.map (fun e => if e.key ∈ es.map (·.key) then upd e else e)
  | [], s, _, _, _, _ => ⟨rfl, by simp⟩
  | e :: es, s, hI, hd, hde, hm => by
    have he := hm e (by simp)
    have hde' := List.pairwise_cons.1 hde
    obtain ⟨h1, h2, h3⟩ := h s e.key e hI hd (point_of_mem hd he)
    have hd1 : KeysDistinct (step s e.key).points := by
      rw [keysDistinct_iff, h1, modifyPoint_keys _ _ hk, ← keysDistinct_iff]; exact hd
    have hm1 : ∀ x ∈ es, x ∈ (step s e.key).points := by
      intro x hx
      rw [h1]
      unfold modifyPoint
      refine List.mem_map.2 ⟨x, hm x (by simp [hx]), ?_⟩
      rw [if_neg]
      exact fun hxe => hde'.1 x hx hxe.symm
    obtain ⟨i1, i2⟩ := foldl_entries step upd hk proj share I h es _ h3 hd1 hde'.2 hm1
    refine ⟨by rw [List.map_cons, List.foldl_cons, i1, h2]; rfl, ?_⟩
    rw [List.map_cons, List.foldl_cons, i2, h1]
    unfold modifyPoint
    rw [List.map_map]
    apply List.map_congr_left
    intro x _
    simp only [Function.comp]
    by_cases hx : x.key = e.key
    · have hout : ¬ (upd x).key ∈ es.map (·.key) := by
        rw [hk, hx]
        intro hmem
        obtain ⟨y, hy, hye⟩ := List.mem_map.1 hmem
        exact hde'.1 y hy hye.symm
      rw [if_pos hx, if_neg hout, if_pos (by simp [hx])]
    · rw [if_neg hx]
      simp only [List.mem_cons, hx, false_or]

/-- An entry of a list with distinct keys is in a selection by key as it is in it by itself. -/
theorem mem_filter_key {l : List PointEntry} (h : KeysDistinct l) (p : PointEntry → Bool)
    {e : PointEntry} (he : e ∈ l) : e.key ∈ (l.filter p).map (·.key) ↔ p e = true := by
  constructor
  · intro hm
    obtain ⟨x, hx, hxe⟩ := List.mem_map.1 hm
    obtain ⟨hx1, hx2⟩ := List.mem_filter.1 hx
    have : x = e := by
      have hn := (keysDistinct_iff l).1 h
      exact List.inj_on_of_nodup_map hn hx1 he hxe
    rwa [← this]
  · intro hp
    exact List.mem_map.2 ⟨e, List.mem_filter.2 ⟨he, hp⟩, rfl⟩

theorem KeysDistinct.filter {l : List PointEntry} (h : KeysDistinct l) (p : PointEntry → Bool) :
    KeysDistinct (l.filter p) := List.Pairwise.filter p h

/-! ### Quality return (R58) -/

theorem alarmAfter_none {a : AlarmRecord} {r : Option Cause} {now : Stamp}
    (h : (alarmAfter a r now).2 = none) : (alarmAfter a r now).1 = a := by
  obtain ⟨st, c, g, rs⟩ := a
  revert h
  cases st <;> cases r <;> simp [alarmAfter] <;> (repeat' split) <;> simp_all

/-- The counts and the horn after a transition that an evaluation makes are those of R69 to R71. -/
theorem counted_eq {a : AlarmRecord} {r : Option Cause} {now : Stamp} {t : Transition}
    (h : (alarmAfter a r now).2 = some t) (u : AlarmUnit) (p : Nat) :
    u.counted p t a.state = u.move p a.state (alarmAfter a r now).1.state := by
  have hen := congrFun (congrFun AlarmUnit.hornOn_eq u) p
  obtain ⟨st, c, g, rs⟩ := a
  revert h
  cases st <;> cases r <;> simp only [alarmAfter] <;> (repeat' split) <;> intro h <;> cases h <;>
    simp only [AlarmUnit.counted, AlarmUnit.move, hen] <;> cases u.enabled p <;> simp [one]

theorem horned_eq (u : AlarmUnit) (p : Nat) (t : Transition) :
    u.horned p t = if t = .raised then u.sound p else u.quiet := by
  unfold AlarmUnit.horned AlarmUnit.sound AlarmUnit.quiet
  rw [AlarmUnit.hornOn_eq]

theorem firstUpAfter_eq {a : AlarmRecord} {r : Option Cause} {now : Stamp} {t : Transition}
    (h : (alarmAfter a r now).2 = some t) (g : Group) (k : Key) :
    g.firstUpAfter k t (alarmAfter a r now).1.state = g.follow k t (alarmAfter a r now).1.state := by
  have hr : t = .raised → (alarmAfter a r now).1.state ≠ .normal := by
    obtain ⟨st, c, gn, rs⟩ := a
    revert h
    cases st <;> cases r <;> simp only [alarmAfter] <;> (repeat' split) <;> intro h <;> cases h <;> simp
  obtain ⟨fu, hol⟩ := g
  unfold Group.firstUpAfter Group.follow
  by_cases ht : t = .raised
  · have := hr ht
    by_cases hf : fu = true ∧ hol = none
    · simp [ht, hf.1, hf.2]
    · rw [if_pos ht, if_neg hf, if_neg (fun h => hf h.2), if_neg (fun h => this h.1)]
  · rw [if_neg ht, if_neg (c := t = .raised ∧ _) (fun h => ht h.1)]

/-- The evaluation of one entry: its record, and the counts, the horn, the holders and the event record. -/
theorem evaluatePoint_effect {s : State} {k : Key} {e : PointEntry} (hd : KeysDistinct s.points)
    (h : s.point k = some e) :
    (s.evaluatePoint k).points = modifyPoint k (PointEntry.evaluated s.stamp) s.points ∧
    (s.evaluatePoint k).board = AlarmBoard.evaluated s.stamp s.board e := by
  have hke : e.key = k := by have := List.find?_some h; simpa using this
  have hmem : e ∈ s.points := List.mem_of_find?_eq_some h
  have huniq : ∀ x ∈ s.points, x.key = k → x = e := fun x hx hxk =>
    List.inj_on_of_nodup_map ((keysDistinct_iff _).1 hd) hx hmem (by rw [hxk, hke])
  have hmod : ∀ f : PointEntry → PointEntry, modifyPoint k f s.points =
      s.points.map (fun x => if x = e then f e else x) := by
    intro f
    unfold modifyPoint
    apply List.map_congr_left
    intro x hx
    by_cases hxe : x.key = k
    · rw [if_pos hxe, if_pos (huniq x hx hxe), huniq x hx hxe]
    · rw [if_neg hxe, if_neg]; rintro rfl; exact hxe hke
  have hsame : PointEntry.evaluated s.stamp e = e → s.points = modifyPoint k (PointEntry.evaluated s.stamp) s.points := by
    intro he
    rw [hmod]
    conv_lhs => rw [← List.map_id' s.points]
    apply List.map_congr_left
    intro x _
    split
    · next hx => rw [hx, he]
    · rfl
  unfold State.evaluatePoint AlarmBoard.evaluated
  rw [h]
  simp only
  cases ha : e.alarm with
  | none =>
    exact ⟨hsame (by simp [PointEntry.evaluated, ha]), rfl⟩
  | some a =>
    simp only
    rw [applyResult_cases]
    cases ht : (alarmAfter a e.evaluate s.stamp).2 with
    | none =>
      refine ⟨hsame ?_, rfl⟩
      simp only [PointEntry.evaluated, ha, alarmAfter_none ht]
      rw [← ha]
    | some t =>
      refine ⟨?_, ?_⟩
      · simp only [State.transition, State.record, State.modifyGroup]
        rw [hke, hmod, hmod]
        apply List.map_congr_left
        intro x _
        split
        · simp [PointEntry.evaluated, ha]
        · rfl
      · simp only [State.board, AlarmBoard.after, counted_eq ht, horned_eq, firstUpAfter_eq ht,
          Reports.joined_eq]
        simp [State.transition, State.record, State.modifyGroup, State.stamp, State.now]

/-- Quality return over a scope, as one step: the statement of R58. -/
theorem qualityReturn_returned {before now : State} (scope : PointEntry → Bool)
    (hd : KeysDistinct now.points) :
    Returned before now (now.qualityReturn before scope) scope := by
  have key := foldl_entries (fun s k => s.evaluatePoint k) (PointEntry.evaluated now.stamp)
    (by intro e; unfold PointEntry.evaluated; split <;> rfl) State.board
    (AlarmBoard.evaluated now.stamp) (fun s => s.stamp = now.stamp)
    (by
      intro s k e hI hd h
      have := evaluatePoint_effect hd h
      rw [hI] at this
      exact ⟨this.1, this.2, (evaluatePoint_alarmSide s k).stamp.trans hI⟩)
  have hq : ∀ e, (scope e && (before.quality e).withheld && (now.quality e).trusted) =
      (scope e && (before.quality e == .offline || before.quality e == .stale) &&
        (now.quality e == .good || now.quality e == .sensorFault)) := by
    intro e; rfl
  have := key (now.points.filter fun e =>
    scope e && (before.quality e).withheld && (now.quality e).trusted) now rfl hd (hd.filter _)
    (fun e he => (List.mem_filter.1 he).1)
  refine ⟨?_, ?_⟩
  · refine this.2.trans ?_
    unfold afterReturn
    apply List.map_congr_left
    intro e he
    have hm := mem_filter_key hd
      (fun e => scope e && (before.quality e).withheld && (now.quality e).trusted) he
    have hc : e.key ∈ (now.points.filter fun e =>
        scope e && (before.quality e).withheld && (now.quality e).trusted).map (·.key) ↔
        scope e = true ∧ (before.quality e = .offline ∨ before.quality e = .stale) ∧
        (now.quality e = .good ∨ now.quality e = .sensorFault) := by
      rw [hm, hq]; simp [and_assoc]
    by_cases hx : scope e = true ∧ (before.quality e = .offline ∨ before.quality e = .stale) ∧
        (now.quality e = .good ∨ now.quality e = .sensorFault)
    · rw [if_pos (hc.2 hx), if_pos hx]; rfl
    · rw [if_neg (fun h => hx (hc.1 h)), if_neg hx]
  · exact this.1

/-! ### Acknowledgement of a scope (R77, R79, R80) -/

/-- One entry's acknowledgement of its record. -/
def acknowledgedEntry (e : PointEntry) : PointEntry :=
  match e.alarm with
  | some a => { e with alarm := some a.acknowledged }
  | none => e

/-- One entry's share of the event records, the counts and the holders at its acknowledgement. -/
def ackShare (now : Stamp) (x : Reports × AlarmUnit × Vector Group 16) (e : PointEntry) :
    Reports × AlarmUnit × Vector Group 16 :=
  match e.alarm with
  | some a =>
    if a.unacknowledged then
      (x.1.record now (.alarm e.key .acked a.cause a.generation),
        (x.2.1.move e.priority a.state a.acknowledged.state).quiet,
        Table.mapIdx (fun i g => if i + 1 = e.group
          then g.follow e.key .acked a.acknowledged.state else g) x.2.2)
    else x
  | none => x

theorem modifyPoint_unique {s : State} (hd : KeysDistinct s.points) {k : Key} {e : PointEntry}
    (h : s.point k = some e) (f : PointEntry → PointEntry) :
    modifyPoint k f s.points = s.points.map (fun x => if x = e then f e else x) := by
  have hke : e.key = k := by have := List.find?_some h; simpa using this
  have hmem : e ∈ s.points := List.mem_of_find?_eq_some h
  unfold modifyPoint
  apply List.map_congr_left
  intro x hx
  by_cases hxe : x.key = k
  · have : x = e := List.inj_on_of_nodup_map ((keysDistinct_iff _).1 hd) hx hmem (by rw [hxe, hke])
    rw [if_pos hxe, if_pos this, this]
  · rw [if_neg hxe, if_neg]; rintro rfl; exact hxe hke

theorem modifyPoint_idle {s : State} (hd : KeysDistinct s.points) {k : Key} {e : PointEntry}
    (h : s.point k = some e) {f : PointEntry → PointEntry} (hf : f e = e) :
    modifyPoint k f s.points = s.points := by
  rw [modifyPoint_unique hd h, hf]
  conv_rhs => rw [← List.map_id' s.points]
  apply List.map_congr_left
  intro x _
  split
  · next hx => rw [hx]
  · rfl

theorem acknowledge_effect {s : State} {k : Key} {e : PointEntry} (hd : KeysDistinct s.points)
    (h : s.point k = some e) :
    (s.acknowledge k).points = modifyPoint k acknowledgedEntry s.points ∧
    ((s.acknowledge k).reports, (s.acknowledge k).alarms, (s.acknowledge k).groups) =
      ackShare s.stamp (s.reports, s.alarms, s.groups) e := by
  have hke : e.key = k := by have := List.find?_some h; simpa using this
  unfold State.acknowledge ackShare
  rw [h]
  simp only
  cases ha : e.alarm with
  | none =>
    exact ⟨(modifyPoint_idle hd h (by simp [acknowledgedEntry, ha])).symm, rfl⟩
  | some a =>
    simp only
    by_cases hu : a.unacknowledged = true
    · simp only [hu, if_true]
      refine ⟨?_, ?_⟩
      · simp only [State.transition, State.record, State.modifyGroup]
        rw [hke, modifyPoint_unique hd h, modifyPoint_unique hd h]
        apply List.map_congr_left
        intro x _
        split
        · simp [acknowledgedEntry, ha]
        · rfl
      · have hgen : a.acknowledged.generation = a.generation := by
          unfold AlarmRecord.acknowledged; split <;> rfl
        simp [State.transition, State.record, State.modifyGroup, hgen, State.stamp, State.now]
    · rw [if_neg hu, if_neg hu]
      refine ⟨(modifyPoint_idle hd h ?_).symm, rfl⟩
      have : a.acknowledged = a := by
        unfold AlarmRecord.acknowledged AlarmRecord.unacknowledged at *
        split <;> simp_all
      simp only [acknowledgedEntry, ha, this]
      rw [← ha]

theorem ackShare_reports (now : Stamp) : ∀ (es : List PointEntry) (x : Reports × AlarmUnit × Vector Group 16),
    (∀ e ∈ es, e.unacknowledged = true) →
    (es.foldl (ackShare now) x).1 = es.foldl
      (fun r e => r.record now (.alarm e.key .acked ((e.alarm.getD .fresh).cause)
        (e.alarm.getD .fresh).generation)) x.1
  | [], _, _ => rfl
  | e :: es, x, h => by
    rw [List.foldl_cons, List.foldl_cons, ackShare_reports now es _ (fun y hy => h y (by simp [hy]))]
    congr 1
    have he := h e (by simp)
    unfold PointEntry.unacknowledged at he
    unfold ackShare
    split
    · next a ha => simp only [ha] at he ⊢; rw [if_pos he]; rfl
    · next ha => simp [ha] at he

theorem ackShare_alarms (now : Stamp) : ∀ (es : List PointEntry) (x : Reports × AlarmUnit × Vector Group 16),
    (∀ e ∈ es, e.unacknowledged = true) →
    (es.foldl (ackShare now) x).2.1 = { x.2.1 with
      unack := x.2.1.unack - es.countP fun e => e.alarmState == .unack
      ringback := x.2.1.ringback - es.countP fun e => e.alarmState == .rtnUnack
      hornCount := x.2.1.hornCount - es.countP fun e =>
        e.alarmState == .unack && x.2.1.enabled e.priority
      horn := if x.2.1.hornCount - es.countP (fun e =>
          e.alarmState == .unack && x.2.1.enabled e.priority) = 0 ∧ es ≠ []
        then .off else x.2.1.horn }
  | [], x, _ => by simp
  | e :: es, x, h => by
    rw [List.foldl_cons, ackShare_alarms now es _ (fun y hy => h y (by simp [hy]))]
    have he := h e (by simp)
    obtain ⟨r, ⟨u, rb, hc, horn, e1, e2, e3⟩, g⟩ := x
    unfold PointEntry.unacknowledged at he
    cases ha : e.alarm with
    | none => simp [ha] at he
    | some a =>
      simp only [ha] at he
      have hen : ∀ p, (ackShare now (r, ⟨u, rb, hc, horn, e1, e2, e3⟩, g) e).2.1.enabled p =
          AlarmUnit.enabled ⟨u, rb, hc, horn, e1, e2, e3⟩ p := by
        intro p
        simp only [ackShare, ha, he, if_true]
        unfold AlarmUnit.quiet AlarmUnit.move
        split <;> rfl
      simp only [hen]
      have hst : a.state = .unack ∨ a.state = .rtnUnack := by
        unfold AlarmRecord.unacknowledged at he; simpa using he
      simp only [ackShare, ha, he, if_true, List.countP_cons, PointEntry.alarmState]
      by_cases hes : es = []
      · subst hes
        rcases hst with hst | hst <;>
          simp only [AlarmRecord.acknowledged, hst, AlarmUnit.move, AlarmUnit.quiet, one] <;>
          cases hb : AlarmUnit.enabled ⟨u, rb, hc, horn, e1, e2, e3⟩ e.priority <;>
          simp <;> split <;> simp_all
      · generalize es.countP _ = n1
        generalize es.countP _ = n2
        generalize es.countP _ = n3
        rcases hst with hst | hst <;>
          simp only [AlarmRecord.acknowledged, hst, AlarmUnit.move, AlarmUnit.quiet, one] <;>
          cases hb : AlarmUnit.enabled ⟨u, rb, hc, horn, e1, e2, e3⟩ e.priority <;>
          simp [hes] <;> split <;> simp [Nat.sub_sub, Nat.add_comm 1] <;> omega

theorem ackShare_groups (now : Stamp) (i : Nat) (hi : i < 16) : ∀ (es : List PointEntry)
    (x : Reports × AlarmUnit × Vector Group 16), (∀ e ∈ es, e.unacknowledged = true) →
    (es.foldl (ackShare now) x).2.2[i] =
      if es.any (fun e => e.alarmState == .rtnUnack && e.group == i + 1 &&
        x.2.2[i].holder == some e.key) then ⟨x.2.2[i].firstUp, none⟩ else x.2.2[i]
  | [], x, _ => by simp
  | e :: es, x, h => by
    rw [List.foldl_cons, ackShare_groups now i hi es _ (fun y hy => h y (by simp [hy]))]
    have he := h e (by simp)
    unfold PointEntry.unacknowledged at he
    cases ha : e.alarm with
    | none => simp [ha] at he
    | some a =>
      simp only [ha] at he
      have hst : a.state = .unack ∨ a.state = .rtnUnack := by
        unfold AlarmRecord.unacknowledged at he; simpa using he
      have hg : (ackShare now x e).2.2[i] = if i + 1 = e.group
          then (x.2.2[i]).follow e.key .acked a.acknowledged.state else x.2.2[i] := by
        simp [ackShare, ha, he]
      rw [hg]
      generalize x.2.2[i] = g
      obtain ⟨fu, hol⟩ := g
      by_cases hgr : i + 1 = e.group
      · rcases hst with hst | hst
        · simp [hgr, Group.follow, AlarmRecord.acknowledged, hst, PointEntry.alarmState, ha]
        · by_cases hh : hol = some e.key
          · simp [hgr, Group.follow, AlarmRecord.acknowledged, hst, PointEntry.alarmState, ha, hh]
          · simp [hgr, Group.follow, AlarmRecord.acknowledged, hst, PointEntry.alarmState, ha, hh]
      · have : ¬ e.group = i + 1 := fun e => hgr e.symm
        simp [hgr, this]

/-- An acknowledgement of a scope as one step: the statement of R77, R79 and R80. -/
theorem acknowledgeKeys_acknowledged {s : State} (hd : KeysDistinct s.points)
    (scope : PointEntry → Bool) :
    Acknowledged s ((s.toAcknowledge scope).foldl (fun s k => s.acknowledge k) s) scope := by
  have key := foldl_entries (fun s k => s.acknowledge k) acknowledgedEntry
    (by intro e; unfold acknowledgedEntry; split <;> rfl)
    (fun s => (s.reports, s.alarms, s.groups)) (ackShare s.stamp) (fun t => t.stamp = s.stamp)
    (by
      intro t k e hI hd h
      have := acknowledge_effect hd h
      rw [hI] at this
      exact ⟨this.1, this.2, (acknowledge_alarmSide t k).stamp.trans hI⟩)
    (s.points.filter fun e => scope e && e.unacknowledged) s rfl hd (hd.filter _)
    (fun e he => (List.mem_filter.1 he).1)
  have hun : ∀ e ∈ s.points.filter (fun e => scope e && e.unacknowledged),
      e.unacknowledged = true := by
    intro e he
    have := (List.mem_filter.1 he).2
    simp only [Bool.and_eq_true] at this
    exact this.2
  have hk : s.toAcknowledge scope =
      (s.points.filter fun e => scope e && e.unacknowledged).map (·.key) := rfl
  rw [hk]
  obtain ⟨h1, h2⟩ := key
  simp only [Prod.ext_iff] at h1
  obtain ⟨hr, ha, hg⟩ := h1
  have hcount : ∀ q : PointEntry → Bool, (∀ e, q e = true → e.unacknowledged = true) →
      (s.points.filter fun e => scope e && e.unacknowledged).countP q =
        s.points.countP fun e => scope e && q e := by
    intro q hq
    rw [List.countP_filter]
    congr 1
    funext e
    cases hqe : q e
    · simp
    · simp [hq e hqe]
  have hu1 : ∀ e : PointEntry, (e.alarmState == .unack) = true → e.unacknowledged = true := by
    intro e he
    unfold PointEntry.alarmState PointEntry.unacknowledged AlarmRecord.unacknowledged at *
    split at he <;> simp_all
  have hu2 : ∀ e : PointEntry, (e.alarmState == .rtnUnack) = true → e.unacknowledged = true := by
    intro e he
    unfold PointEntry.alarmState PointEntry.unacknowledged AlarmRecord.unacknowledged at *
    split at he <;> simp_all
  refine ⟨?_, ?_, ?_, ?_⟩
  · refine h2.trans ?_
    unfold afterAcknowledge
    apply List.map_congr_left
    intro e he
    have hm := mem_filter_key hd (fun e => scope e && e.unacknowledged) he
    simp only [hm]
    unfold PointEntry.unacknowledged acknowledgedEntry AlarmRecord.unacknowledged
      AlarmRecord.acknowledged
    cases ha : e.alarm with
    | none => simp
    | some a => cases hs : scope e <;> cases hst : a.state <;> simp [hst]
  · rw [hr, ackShare_reports _ _ _ hun, Reports.joined_eq]
  · have := ackShare_alarms s.stamp _ (s.reports, s.alarms, s.groups) hun
    rw [ha, this, AlarmUnit.hornOn_eq]
    simp only [hcount _ hu1, hcount _ hu2, hcount (fun e => e.alarmState == .unack &&
      s.alarms.enabled e.priority) (fun e he => hu1 e (by simp only [Bool.and_eq_true] at he; exact he.1))]
    have hne : (s.points.filter fun e => scope e && e.unacknowledged) ≠ [] ↔
        s.points.any (fun e => scope e && e.unacknowledged) = true := by
      simp [List.filter_eq_nil_iff]
    simp only [hne, Bool.and_assoc]
  · intro g hgl
    have := ackShare_groups s.stamp g hgl _ (s.reports, s.alarms, s.groups) hun
    simp only [hg, this]
    rw [List.any_filter]
    congr 2
    rw [Bool.eq_iff_iff]
    simp only [List.any_eq_true, Bool.and_eq_true]
    constructor
    · rintro ⟨e, h1, ⟨h2, h3⟩, ⟨h4, h5⟩, h6⟩
      exact ⟨e, h1, ⟨⟨⟨h2, h4⟩, h5⟩, h6⟩⟩
    · rintro ⟨e, h1, ⟨⟨⟨h2, h4⟩, h5⟩, h6⟩⟩
      exact ⟨e, h1, ⟨h2, hu2 e h4⟩, ⟨h4, h5⟩, h6⟩

/-! ### Retirement (R13, R83) -/

/-- The retirement of an entry as one step. -/
theorem retire_retired (s : State) (e : PointEntry) : Retired s (s.retire e) e := by
  refine ⟨?_, ?_, ?_, ?_⟩
  · intro h
    unfold State.retire
    split
    · next a ha => rw [if_pos (h a ha)]; exact ⟨rfl, rfl, rfl⟩
    · exact ⟨rfl, rfl, rfl⟩
  · intro a ha hs
    simp [State.retire, ha, hs, State.record, State.modifyGroup, Reports.joined_eq]
  · intro a ha hs g hg
    simp only [State.retire, ha, if_neg hs, State.modifyGroup, State.record]
    simp only [Table.mapIdx_getElem]
    by_cases h1 : g + 1 = e.group
    · simp [h1]
    · simp [h1]
  · intro a ha hs
    simp only [State.retire, ha, if_neg hs, State.modifyGroup, State.record, AlarmUnit.move,
      AlarmUnit.quiet, one, AlarmUnit.hornOn_eq]
    cases hst : a.state <;> simp_all <;> (repeat' split) <;> first | rfl | simp_all

end Sys2Proof.Machine
end

