-- ==== Sys2Proof/Laws/Port.lean ====
section
/-! SUPPORT. What a grant can do, said once, and that the own events of the controller are the rows they are
named by, due when the statements say so. -/

namespace Sys2Proof.Machine

/-! ### A grant (R166) -/

theorem grantPossible_iff (s : State) : s.grantPossible = true ↔ ¬ NoGrantDue s := by
  unfold State.grantPossible NoGrantDue State.localWaits State.assigned
  cases s.port.sending <;> cases s.port.fifo <;> cases s.port.station <;>
    cases s.commands.replies <;> cases s.reports.queue <;> simp

/-- Where no grant is due, granting changes nothing. -/
theorem granted_of_noGrantDue {s : State} (h : NoGrantDue s) : s.granted = s := by
  unfold NoGrantDue at h
  unfold State.granted
  cases hs : s.port.sending with
  | some x => rfl
  | none =>
    simp only [hs, Option.isSome_none, Bool.false_eq_true, false_or] at h
    obtain ⟨hf, h⟩ := h
    have hw : s.localWaits = false := by
      unfold State.localWaits State.assigned
      rcases h with h | ⟨h, h'⟩ <;> simp [*]
    simp [hf, hw]

/-- Once granted, no grant is due. -/
theorem noGrantDue_granted (s : State) : NoGrantDue s.granted := by
  by_cases h : NoGrantDue s
  · rw [granted_of_noGrantDue h]; exact h
  · have hp := (grantPossible_iff s).2 h
    left
    unfold State.grantPossible at hp
    unfold State.granted
    cases hs : s.port.sending with
    | some x => simp [hs] at hp
    | none =>
      have hlocal : s.localWaits = true → s.grantLocal.port.sending.isSome := by
        intro hw
        unfold State.grantLocal
        cases hr : s.commands.replies with
        | cons f rest => rfl
        | nil =>
          have hq : s.reports.queue.isEmpty = false := by
            simp [State.localWaits, hr] at hw
            simpa using hw.2
          simp only [hq]
          rfl
      cases hf : s.port.fifo with
      | nil =>
        simp only [hs, hf] at hp ⊢
        have hw : s.localWaits = true := by simpa using hp
        rw [if_pos hw]
        exact hlocal hw
      | cons f rest =>
        simp only
        split
        · rfl
        · next hc =>
          apply hlocal
          simp only [not_or, not_not] at hc
          exact hc.2

theorem granted_granted (s : State) : s.granted.granted = s.granted :=
  granted_of_noGrantDue (noGrantDue_granted s)

/-- A grant changes the Loop Port, the reply queue and the Event Queue, and nothing else. -/
theorem granted_frame (s : State) : s.granted =
    { s with
      port := { s.port with
        fifo := s.granted.port.fifo, sending := s.granted.port.sending
        localWait := s.granted.port.localWait }
      commands := { s.commands with replies := s.granted.commands.replies }
      reports := { s.reports with queue := s.granted.reports.queue } } := by
  have hlocal : s.grantLocal = { s with
      port := { s.port with
        fifo := s.grantLocal.port.fifo, sending := s.grantLocal.port.sending
        localWait := s.grantLocal.port.localWait }
      commands := { s.commands with replies := s.grantLocal.commands.replies }
      reports := { s.reports with queue := s.grantLocal.reports.queue } } := by
    unfold State.grantLocal
    repeat' split
    all_goals rfl
  unfold State.granted
  repeat' split
  all_goals first | rfl | exact hlocal

@[simp] theorem State.granted_clock (s : State) : s.granted.clock = s.clock := by
  rw [granted_frame]
@[simp] theorem State.granted_startDue (s : State) : s.granted.startDue = s.startDue := by
  rw [granted_frame]
@[simp] theorem State.granted_supervisor (s : State) : s.granted.supervisor = s.supervisor := by
  rw [granted_frame]
@[simp] theorem State.granted_generators (s : State) : s.granted.generators = s.generators := by
  rw [granted_frame]
@[simp] theorem State.granted_points (s : State) : s.granted.points = s.points := by
  rw [granted_frame]
@[simp] theorem State.granted_outstations (s : State) : s.granted.outstations = s.outstations := by
  rw [granted_frame]
@[simp] theorem State.granted_groups (s : State) : s.granted.groups = s.groups := by
  rw [granted_frame]
@[simp] theorem State.granted_unmapped (s : State) : s.granted.unmapped = s.unmapped := by
  rw [granted_frame]
@[simp] theorem State.granted_staleLimit (s : State) : s.granted.staleLimit = s.staleLimit := by
  rw [granted_frame]
@[simp] theorem State.granted_alarms (s : State) : s.granted.alarms = s.alarms := by
  rw [granted_frame]
@[simp] theorem State.granted_lamps (s : State) : s.granted.lamps = s.lamps := by
  rw [granted_frame]
@[simp] theorem State.granted_panel (s : State) : s.granted.panel = s.panel := by
  rw [granted_frame]
@[simp] theorem State.granted_pending (s : State) : s.granted.pending = s.pending := by
  rw [granted_frame]
@[simp] theorem State.granted_station (s : State) : s.granted.port.station = s.port.station := by
  rw [granted_frame]
@[simp] theorem State.granted_receiver (s : State) : s.granted.port.receiver = s.port.receiver := by
  rw [granted_frame]

/-! ### The controller's own events -/

/-- An own event does what its row does. -/
theorem exec_row (e : OwnEvent) (currents : BitVec 256) (s : State) :
    exec (e.row currents) s = .next (e.take currents s) := by
  cases e <;> rfl

theorem msReached_iff (s : State) (o : Option Nat) :
    s.msReached o = true ↔ ∃ t, o = some t ∧ t ≤ s.now := by
  cases o <;> simp [State.msReached]

theorem usReached_iff (s : State) (o : Option Nat) :
    s.usReached o = true ↔ ∃ t, o = some t ∧ t ≤ s.clock := by
  cases o <;> simp [State.usReached]

theorem mem_cadences (c : Cadence) : c ∈ [Cadence.alert, .first, .ret, .motion, .stale] := by
  cases c <;> decide

theorem mem_allLines (i : Fin 8) : i ∈ allLines := by revert i; decide

theorem gapEnds_iff (r : Receiver) (g : Nat) :
    r.gapEnds = some g ↔ r = .length g ∨ ∃ n got, r = .collecting n got g := by
  cases r <;> simp [Receiver.gapEnds]

/-- The conditions that `ownEvent` asks in turn are those under which an own event is due. -/
theorem due_iff (s : State) (e : OwnEvent) : Due s e ↔
    match e with
    | .grant => s.grantPossible = true
    | .started => s.usReached s.startedDue = true
    | .gap => s.usReached s.port.receiver.gapEnds = true
    | .sent => s.usReached s.sendingEnds = true
    | .lateBound => s.msReached s.lateBoundDue = true
    | .dwell => s.msReached s.dwellDue = true
    | .hold => s.msReached s.lamps.holdEnds = true
    | .phase c => c ∈ s.phasesOver
    | .debounce i => i ∈ s.linesOver
    | .sense => s.msReached (some s.lamps.senseDue) = true := by
  cases e with
  | grant => exact (grantPossible_iff s).symm
  | started => simp [Due, usReached_iff, State.startedDue, Config.startedDelay, Option.isSome_iff_exists]
  | gap => simp [Due, usReached_iff, gapEnds_iff]
  | sent =>
    simp only [Due, usReached_iff, State.sendingEnds]
    cases s.port.sending with
    | none => simp
    | some x => obtain ⟨f, t⟩ := x; simp
  | lateBound =>
    simp only [Due, msReached_iff, State.lateBoundDue]
    by_cases h : s.supervisor.state = .noSync <;> cases hr : s.supervisor.reference <;>
      simp [h, Supervisor.lateBound]
  | dwell =>
    simp only [Due, msReached_iff, State.dwellDue]
    cases hw : s.lamps.sweep with
    | none => simp
    | some w => cases hr : w.run <;> simp [SweepRun.ends, hr]
  | hold => simp [Due, msReached_iff]
  | phase c =>
    simp only [Due, State.phasesOver, List.mem_filter, mem_cadences, true_and, msReached_iff,
      State.phaseDue]
    cases (s.generators.get c).phase with
    | none => simp
    | some x => obtain ⟨p, t⟩ := x; simp
  | debounce i =>
    simp [Due, State.linesOver, mem_allLines, msReached_iff, State.debounceDue]
  | sense => simp [Due, msReached_iff]

/-- The own event that is taken is due. -/
theorem ownEvent_due {s : State} {e : OwnEvent} (h : s.ownEvent = some e) : Due s e := by
  rw [due_iff]
  unfold State.ownEvent at h
  repeat' split at h
  all_goals cases h
  all_goals first | assumption | simp_all

/-- An own event is taken while one is due. -/
theorem ownEvent_isSome {s : State} {e : OwnEvent} (h : Due s e) : s.ownEvent.isSome := by
  rw [due_iff] at h
  unfold State.ownEvent
  repeat' split
  all_goals first | rfl | skip
  cases e <;> simp_all

/-- What an own event happening and time passing keep, a stretch of the controller's own time keeps. -/
theorem passUntil_keeps (Inv : State → Prop) (moment : Nat)
    (hevent : ∀ s e, Inv s → Due s e → Inv (s.happen e))
    (htime : ∀ s us, Inv s → Inv (s.advanceTo us)) :
    ∀ (n : Nat) (s : State), Inv s → Inv (s.passUntil moment n)
  | 0, s, h => htime s moment h
  | n + 1, s, h => by
    unfold State.passUntil
    split
    · next e he => exact passUntil_keeps Inv moment hevent htime n _ (hevent s e h (ownEvent_due he))
    · split
      · exact passUntil_keeps Inv moment hevent htime n _ (htime s _ h)
      · exact htime s moment h

theorem earlier_le (t : Nat) (o : Option Nat) :
    earlier t o ≤ t ∧ ∀ u, o = some u → earlier t o ≤ u := by
  cases o with
  | none => exact ⟨Nat.le_refl _, fun u h => by cases h⟩
  | some v => exact ⟨Nat.min_le_left .., fun u h => by cases h; exact Nat.min_le_right ..⟩

/-- Where no own event is due, none is before the next moment, which lies ahead. -/
theorem not_due_before {s : State} (h : s.ownEvent = none) :
    s.clock < s.nextMoment ∧
      ∀ e c, s.clock ≤ c → c < s.nextMoment → ¬ Due { s with clock := c } e := by
  have hd : ∀ e, ¬ Due s e := fun e he => by simpa [h] using ownEvent_isSome he
  obtain ⟨h1, h2⟩ := earlier_le ((s.now + 1) * 1000) s.startedDue
  obtain ⟨h3, h4⟩ := earlier_le (earlier ((s.now + 1) * 1000) s.startedDue) s.port.receiver.gapEnds
  obtain ⟨h5, h6⟩ := earlier_le (earlier (earlier ((s.now + 1) * 1000) s.startedDue)
    s.port.receiver.gapEnds) s.sendingEnds
  have hnow : s.now = s.clock / 1000 := rfl
  have hahead : ∀ (t : Nat) (o : Option Nat), s.clock < t → s.usReached o = false →
      s.clock < earlier t o := by
    intro t o ht ho
    cases o with
    | none => exact ht
    | some u =>
      have : s.clock < u := by simpa [State.usReached] using ho
      simp only [earlier]; omega
  have husd : ∀ e o, (Due s e ↔ s.usReached o = true) → s.usReached o = false := fun e o he => by
    simpa using mt he.2 (hd e)
  refine ⟨hahead _ _ (hahead _ _ (hahead _ _ (by omega) (husd .started _ (due_iff ..)))
    (husd .gap _ (due_iff ..))) (husd .sent _ (due_iff ..)), ?_⟩
  intro e c h0 hc hdue
  have hc' : c < earlier (earlier (earlier ((s.now + 1) * 1000) s.startedDue)
    s.port.receiver.gapEnds) s.sendingEnds := hc
  have hsame : ({ s with clock := c } : State).now = s.now := by
    show c / 1000 = s.clock / 1000
    omega
  apply hd e
  cases e with
  | grant => exact hdue
  | started =>
    obtain ⟨hs, hc40⟩ := hdue
    have h40 := h2 40 (by
      obtain ⟨x, hx⟩ := Option.isSome_iff_exists.1 hs
      have hx' : s.startDue = some x := hx
      simp [State.startedDue, hx', Config.startedDelay])
    have : 40 ≤ c := hc40
    omega
  | gap =>
    obtain ⟨g, hg, hgc⟩ := hdue
    have := h4 g ((gapEnds_iff ..).2 hg)
    have : g ≤ c := hgc
    omega
  | sent =>
    obtain ⟨f, t, ht, htc⟩ := hdue
    have ht' : s.port.sending = some (f, t) := ht
    have := h6 t (by simp [State.sendingEnds, ht'])
    have : t ≤ c := htc
    omega
  | lateBound => simpa only [Due, hsame] using hdue
  | dwell => simpa only [Due, hsame] using hdue
  | hold => simpa only [Due, hsame] using hdue
  | phase k => simpa only [Due, hsame] using hdue
  | debounce i =>
    obtain ⟨m, hm, hd⟩ := hdue
    exact ⟨m, hm, hsame ▸ hd⟩
  | sense => simpa only [Due, hsame] using hdue

/-- A stretch of the controller's own time is a run of due own events and of time passing over none, of
at most the number given; where that number runs out, the clock moves on to the moment. -/
theorem passUntil_ownRun (moment : Nat) : ∀ (n : Nat) (s : State), ∃ k m, OwnRun k s m ∧ k ≤ n ∧
    (s.passUntil moment n = m ∨ (k = n ∧ s.passUntil moment n = m.advanceTo moment))
  | 0, s => ⟨0, s, .done s, Nat.le_refl _, .inr ⟨rfl, rfl⟩⟩
  | n + 1, s => by
    unfold State.passUntil
    split
    · next e he =>
      obtain ⟨k, m, hr, hk, h⟩ := passUntil_ownRun moment n (s.happen e)
      refine ⟨k + 1, m, .event k s _ m e s.freeCurrents _ (ownEvent_due he) (exec_row ..) hr, by omega, ?_⟩
      exact h.imp id fun ⟨a, b⟩ => ⟨by omega, b⟩
    · next hn =>
      obtain ⟨hlt, hnd⟩ := not_due_before hn
      split
      · have hp : s.passTime = { s with clock := s.nextMoment } := by
          simp [State.passTime, State.advanceTo, Nat.max_eq_right (Nat.le_of_lt hlt)]
        obtain ⟨k, m, hr, hk, h⟩ := passUntil_ownRun moment n s.passTime
        refine ⟨k + 1, m, .time k s m s.nextMoment hlt hnd (hp ▸ hr), by omega, ?_⟩
        exact h.imp id fun ⟨a, b⟩ => ⟨by omega, b⟩
      · next hm =>
        by_cases hc : s.clock < moment
        · refine ⟨1, _, .time 0 s _ moment hc (fun e c h0 h1 => hnd e c h0 (by omega)) (.done _),
            by omega, .inl ?_⟩
          simp [State.advanceTo, Nat.max_eq_right (Nat.le_of_lt hc)]
        · refine ⟨0, s, .done s, by omega, .inl ?_⟩
          simp [State.advanceTo, Nat.max_eq_left (Nat.le_of_not_lt hc)]

/-! ### Frames on the line (R153, R154) -/

theorem crcStep_eq (r : BitVec 16) : crcStep r = crcShift r := by
  simp [crcStep, crcShift, BitVec.msb_eq_getLsbD_last]

theorem crcByte_eq (r : BitVec 16) (b : Byte) :
    crcByte r b = crcShift^[8] (r ^^^ (b ++ (0 : Byte))) := by
  have h : (b.zeroExtend 16 <<< 8 : BitVec 16) = b ++ (0 : Byte) := by revert b; decide +kernel
  simp only [crcByte, crcStep_eq, h, Function.iterate_succ, Function.iterate_zero, Function.comp, id]

/-- The CRC that the model computes is that of R154. -/
theorem crc16_eq (bytes : List Byte) : crc16 bytes = crcOf bytes :=
  congrArg (fun f => bytes.foldl f 0xFFFF) (funext fun r => funext fun b => crcByte_eq r b)

theorem Frame.covered_eq (f : Frame) : f.covered = f.checked := rfl

/-- The bytes that the transmitter sends are those of R153. -/
theorem Frame.wire_eq (f : Frame) : f.wire = f.sentAs := by
  have h : ∀ r : BitVec 16, bytes16 r.toNat = [r.extractLsb' 8 8, r.extractLsb' 0 8] := by
    intro r
    simp only [bytes16, byteOf, List.cons.injEq, and_true]
    constructor <;> apply BitVec.eq_of_toNat_eq <;>
      simp [BitVec.extractLsb'_toNat, Nat.shiftRight_eq_div_pow]
  simp only [Frame.wire, Frame.sentAs, Frame.covered_eq, crc16_eq, h]
  rfl

theorem Frame.sentAs_length (f : Frame) : f.sentAs.length = f.body.length + 7 := by
  simp [Frame.sentAs, Frame.checked]

theorem carries_characterOf (b : Byte) : Carries (characterOf b) b := by
  have hb : ∀ (b : Byte) (k : Fin 8),
      b.getLsbD k = true ↔ (characterOf b).data[k] = .high := by decide +kernel
  exact fun k h => hb b ⟨k, h⟩

/-- The byte read from a character is the one it carries. -/
theorem characterByte_eq {c : Character} {b : Byte} (h : Carries c b) : characterByte c = b := by
  have hd : c.data = (characterOf b).data := by
    apply Vector.ext
    intro k hk
    have h' := (h k hk).symm.trans (carries_characterOf b k hk)
    cases h1 : c.data[k] <;> cases h2 : (characterOf b).data[k] <;> simp_all
  have hb : ∀ b : Byte, characterByte (characterOf b) = b := by decide +kernel
  rw [← hb b]
  simp only [characterByte, hd]

end Sys2Proof.Machine
end

