-- ==== Sys2Proof/Laws/Commands.lean ====
section
/-! SUPPORT. How a frame reaches the Command Unit: what the arrival of an addressed, a broadcast and a foreign
frame comes to, said once for all command rows. -/

namespace Sys2Proof.Machine

/-- What reception leaves, with the station known to be ASSIGNED. -/
theorem received_of_station {s : State} {n : Byte} (h : s.port.station = some n) :
    s.received = { s with port := { s.port with receiver := .hunting, badRun := 0 } } := by
  simp [State.received, h]


/-- Forwarding a received frame is what `passedOn` says. -/
theorem received_forward {s : State} {n : Byte} (h : s.port.station = some n) (f : Frame) :
    s.received.forward f = s.passedOn f := by
  rw [received_of_station h]
  unfold State.forward State.passedOn Config.fifoDepth
  split
  · rfl
  · rw [if_pos (by simp [State.assigned, h])]
    simp only [State.occur, saturate, Reports.caused_eq]
    congr 2

/-- An addressed command with a slot free is executed and its reply placed (R174, R175). -/
theorem arriveCommand_addressed {s : State} {h : CommandHead} (ha : Addressed s h) (code : Byte)
    (params : List Byte) :
    s.arriveCommand h code params =
      .next ((s.received.execute h.tag code params).settle h.dest h.tag code) := by
  obtain ⟨⟨hs, h0, h63⟩, hf, hr, hn⟩ := ha
  have h1 : ¬ ((63 : Byte) = h.dest) := fun e => h63 e.symm
  simp only [State.arriveCommand, granted_of_noGrantDue hn, State.arrive, hs, commandFrame, State.forwardingDecision,
    isTelemetry, kindCommand, kindCycle, kindPoints, kindOutstation, Config.loopHead, hf]
  rw [if_neg h1]
  simp [State.takeAddressedBody, State.takeAddressed, CommandUnit.hasRoom, Config.replySlots, hr]

/-- An addressed command with no slot free is dropped (R174). -/
theorem arriveCommand_dropped {s : State} {h : CommandHead} (ha : AssignedAs s h.dest)
    (hn : NoGrantDue s) (hf : h.src = 63)
    (hr : 4 ≤ s.commands.replies.length + s.commands.reserved) (code : Byte) (params : List Byte) :
    s.arriveCommand h code params = .next s.received.dropCommand := by
  obtain ⟨hs, h0, h63⟩ := ha
  have h1 : ¬ ((63 : Byte) = h.dest) := fun e => h63 e.symm
  have h2 : ¬ (s.commands.replies.length + s.commands.reserved < 4) := by omega
  simp only [State.arriveCommand, granted_of_noGrantDue hn, State.arrive, hs, commandFrame, State.forwardingDecision,
    isTelemetry, kindCommand, kindCycle, kindPoints, kindOutstation, Config.loopHead, hf]
  rw [if_neg h1]
  simp [State.takeAddressedBody, State.takeAddressed, CommandUnit.hasRoom, Config.replySlots, h2]

/-- A broadcast command is forwarded and taken by the broadcast rule (R176). -/
theorem arriveCommand_broadcast {s : State} {n : Byte} (ha : AssignedAs s n) (hn : NoGrantDue s)
    (tag code : Byte) (params : List Byte) :
    s.arriveCommand ⟨0, 63, tag⟩ code params =
      .next ((s.passedOn (commandFrame ⟨0, 63, tag⟩ code params)).takeBroadcast tag code params) := by
  obtain ⟨hs, h0, h63⟩ := ha
  have h1 : ¬ ((63 : Byte) = n) := fun e => h63 e.symm
  have h2 : ¬ ((0 : Byte) = n) := fun e => h0 e.symm
  rw [← received_forward hs]
  simp only [State.arriveCommand, granted_of_noGrantDue hn, State.arrive, hs, commandFrame, State.forwardingDecision,
    isTelemetry, kindCommand, kindCycle, kindPoints, kindOutstation, Config.loopHead]
  rw [if_neg h1]
  simp only [State.takeBroadcastBody, if_neg h2]
  simp

/-- A telemetry frame from the loop head is forwarded and then taken by its block (R162, row 2). -/
theorem arrive_telemetry {s : State} {n : Byte} (ha : AssignedAs s n) (kind dest : Byte)
    (body : List Byte) (hk : isTelemetry kind) :
    s.arrive ⟨kind, dest, 63, body⟩ =
      (s.passedOn ⟨kind, dest, 63, body⟩).takeTelemetry ⟨kind, dest, 63, body⟩ := by
  obtain ⟨hs, h0, h63⟩ := ha
  have h1 : ¬ ((63 : Byte) = n) := fun e => h63 e.symm
  rw [← received_forward hs]
  simp only [State.arrive, hs, State.forwardingDecision, Config.loopHead]
  rw [if_neg h1]
  simp [hk]

/-- The reply that an executed command places (R179, R200). -/
def replyOf (h : CommandHead) (code : Byte) (r : Result) (data : List Byte) : Frame :=
  ⟨0x05, 63, h.dest, h.tag :: code :: byteOf r.code :: data⟩

/-- A command of the part, addressed, with parameters of its length: the state it leaves, with the reply
it answers. -/
theorem arriveCommand_answered {s t : State} {h : CommandHead} (ha : Addressed s h)
    {code : Byte} {params : List Byte} {rule : CommandRule} (hc : commandRule code = some rule)
    (hl : params.length = rule.length) {r : Result} {data : List Byte}
    (hr : rule.run h.tag params s.received = ⟨t, some (r, data)⟩) :
    s.arriveCommand h code params = .next { t with commands := { t.commands with
      replies := t.commands.replies ++ [replyOf h code r data] } } := by
  rw [arriveCommand_addressed ha, State.execute, hc]
  simp only [hl, if_true, hr]
  rfl

/-- A command refused by its own checks is answered and nothing else changes (R175). -/
theorem arriveCommand_refused {s : State} {h : CommandHead} (ha : Addressed s h)
    {code : Byte} {params : List Byte} {rule : CommandRule} (hc : commandRule code = some rule)
    (hl : params.length = rule.length) {r : Result} {data : List Byte}
    (hr : rule.run h.tag params s.received = ⟨s.received, some (r, data)⟩) :
    ∃ t, s.arriveCommand h code params = .next t ∧ AnsweredOnly s t h code r data := by
  refine ⟨_, arriveCommand_answered ha hc hl hr, ?_, ?_, ?_⟩ <;>
    simp [received_of_station ha.assigned.1, Heard, OneReply, replyOf]

/-- A command that is no command of the part, or has the wrong length, is answered and nothing else
changes (R175). -/
theorem arriveCommand_unread {s : State} {h : CommandHead} (ha : Addressed s h) {code : Byte}
    {params : List Byte} {r : Result}
    (hr : s.received.execute h.tag code params = .refuse s.received r) :
    ∃ t, s.arriveCommand h code params = .next t ∧ AnsweredOnly s t h code r [] := by
  refine ⟨_, arriveCommand_addressed ha code params, ?_⟩
  rw [hr]
  refine ⟨?_, ?_, ?_⟩ <;>
    simp [Answer.refuse, Answer.settle, State.placeReply, replyFrame, replyBody, kindReply,
      Config.loopHead, received_of_station ha.assigned.1, Heard, OneReply]

end Sys2Proof.Machine
end

