-- ==== Sys2Proof/Laws/PerInstr.lean ====
section
/-! SUPPORT. The family FrameOfRow of LAWS.json, per row of the table: the frame a well-formed frame row stands
for has a body that a frame can carry. -/

namespace Sys2Proof.Laws.FrameOfRow

open Sys2Proof.Machine

/-- A well-formed row that is a frame has a body of at most 117 bytes, as the LENGTH of its envelope
requires (R153). -/
def Statement (i : Instr) : Prop :=
  Sys2Proof.WellFormed i = true → ∀ f, frameOf i = some f → f.body.length ≤ 117

theorem noFrame {i : Instr} (h : frameOf i = none) : Statement i := by
  intro _ f hf; rw [h] at hf; cases hf

theorem ofCommand {i : Instr} {h : CommandHead} {code : Byte} {params : List Byte}
    (hf : frameOf i = some (commandFrame h code params))
    (hw : Sys2Proof.WellFormed i = true → paramsFit params = true) : Statement i := by
  intro w f hf'
  rw [hf] at hf'
  cases hf'
  have := hw w
  simp only [paramsFit, decide_eq_true_eq] at this
  simp only [commandFrame, List.length_cons]
  omega

theorem hardwareReset (source : ResetSource) (straps : BitVec 6) :
    Statement (.hardwareReset source straps) := noFrame rfl

theorem startedRecordQueued : Statement .startedRecordQueued := noFrame rfl

theorem badLength : Statement .badLength := noFrame rfl

theorem truncated : Statement .truncated := noFrame rfl

theorem badCrc : Statement .badCrc := noFrame rfl

theorem forwardedFrame (kind dest src : Byte) (body : List Byte) :
    Statement (.forwardedFrame kind dest src body) := by
  intro w f hf
  cases hf
  simp only [Sys2Proof.WellFormed, bodyFits, Bool.and_eq_true, decide_eq_true_eq] at w
  exact w.1

theorem cycleMarker (dest src : Byte) (body : List Byte) :
    Statement (.cycleMarker dest src body) := by
  intro w f hf
  cases hf
  simp only [Sys2Proof.WellFormed, bodyFits, Bool.and_eq_true, decide_eq_true_eq] at w
  exact w.1

theorem lateBoundExpiry : Statement .lateBoundExpiry := noFrame rfl

theorem pointsFrame (dest src : Byte) (body : List Byte) :
    Statement (.pointsFrame dest src body) := by
  intro w f hf
  cases hf
  simp only [Sys2Proof.WellFormed, bodyFits, Bool.and_eq_true, decide_eq_true_eq] at w
  exact w.1

theorem outstationFrame (dest src : Byte) (body : List Byte) :
    Statement (.outstationFrame dest src body) := by
  intro w f hf
  cases hf
  simp only [Sys2Proof.WellFormed, bodyFits, Bool.and_eq_true, decide_eq_true_eq] at w
  exact w.1

theorem commandWithoutCode (dest src : Byte) (body : List Byte) :
    Statement (.commandWithoutCode dest src body) := by
  intro w f hf
  cases hf
  simp only [Sys2Proof.WellFormed, decide_eq_true_eq] at w
  simp only
  omega

theorem unknownCommand (head : CommandHead) (code : Byte) (params : List Byte) :
    Statement (.unknownCommand head code params) := ofCommand rfl fun w => (Bool.and_eq_true _ _ ▸ w).1

theorem status (head : CommandHead) (params : List Byte) :
    Statement (.status head params) := ofCommand rfl id

theorem setStation (head : CommandHead) (params : List Byte) :
    Statement (.setStation head params) := ofCommand rfl id

theorem restart (head : CommandHead) (params : List Byte) :
    Statement (.restart head params) := ofCommand rfl id

theorem setTiming (head : CommandHead) (params : List Byte) :
    Statement (.setTiming head params) := ofCommand rfl id

theorem resync (head : CommandHead) (params : List Byte) :
    Statement (.resync head params) := ofCommand rfl id

theorem setCadenceRun (head : CommandHead) (params : List Byte) :
    Statement (.setCadenceRun head params) := ofCommand rfl fun w => (Bool.and_eq_true _ _ ▸ w).1

theorem setCadenceStop (head : CommandHead) (params : List Byte) :
    Statement (.setCadenceStop head params) := ofCommand rfl fun w => (Bool.and_eq_true _ _ ▸ w).1

theorem pointLoad (head : CommandHead) (params : List Byte) :
    Statement (.pointLoad head params) := ofCommand rfl id

theorem pointDrop (head : CommandHead) (params : List Byte) :
    Statement (.pointDrop head params) := ofCommand rfl id

theorem pointRead (head : CommandHead) (params : List Byte) :
    Statement (.pointRead head params) := ofCommand rfl id

theorem tableClear (head : CommandHead) (params : List Byte) :
    Statement (.tableClear head params) := ofCommand rfl id

theorem tableScan (head : CommandHead) (params : List Byte) :
    Statement (.tableScan head params) := ofCommand rfl id

theorem groupSet (head : CommandHead) (params : List Byte) :
    Statement (.groupSet head params) := ofCommand rfl id

theorem outstationRead (head : CommandHead) (params : List Byte) :
    Statement (.outstationRead head params) := ofCommand rfl id

theorem setStaleLimit (head : CommandHead) (params : List Byte) :
    Statement (.setStaleLimit head params) := ofCommand rfl id

theorem ackPoint (head : CommandHead) (params : List Byte) :
    Statement (.ackPoint head params) := ofCommand rfl id

theorem ackGroup (head : CommandHead) (params : List Byte) :
    Statement (.ackGroup head params) := ofCommand rfl id

theorem ackAll (head : CommandHead) (params : List Byte) :
    Statement (.ackAll head params) := ofCommand rfl id

theorem silence (head : CommandHead) (params : List Byte) :
    Statement (.silence head params) := ofCommand rfl id

theorem hornSet (head : CommandHead) (params : List Byte) :
    Statement (.hornSet head params) := ofCommand rfl id

theorem lampOverride (head : CommandHead) (params : List Byte) :
    Statement (.lampOverride head params) := ofCommand rfl id

theorem lampRead (head : CommandHead) (params : List Byte) :
    Statement (.lampRead head params) := ofCommand rfl id

theorem holdOn (head : CommandHead) (params : List Byte) :
    Statement (.holdOn head params) := ofCommand rfl fun w => (Bool.and_eq_true _ _ ▸ w).1

theorem holdOff (head : CommandHead) (params : List Byte) :
    Statement (.holdOff head params) := ofCommand rfl fun w => (Bool.and_eq_true _ _ ▸ w).1

theorem holdExpiry : Statement .holdExpiry := noFrame rfl

theorem prove (head : CommandHead) (params : List Byte) :
    Statement (.prove head params) := ofCommand rfl id

theorem dwellEnd (currents : BitVec 256) : Statement (.dwellEnd currents) := noFrame rfl

theorem clearLampFaults (head : CommandHead) (params : List Byte) :
    Statement (.clearLampFaults head params) := ofCommand rfl id

theorem senseTimerExpiry (currents : BitVec 256) :
    Statement (.senseTimerExpiry currents) := noFrame rfl

theorem phaseEnd (generator : Cadence) (currents : BitVec 256) :
    Statement (.phaseEnd generator currents) := noFrame rfl

theorem lineSet (head : CommandHead) (params : List Byte) :
    Statement (.lineSet head params) := ofCommand rfl id

theorem lineWrite (head : CommandHead) (params : List Byte) :
    Statement (.lineWrite head params) := ofCommand rfl id

theorem lineRead (head : CommandHead) (params : List Byte) :
    Statement (.lineRead head params) := ofCommand rfl id

theorem pinChange (line : Fin 8) (level : PinLevel) :
    Statement (.pinChange line level) := noFrame rfl

theorem debounceExpiry (line : Fin 8) : Statement (.debounceExpiry line) := noFrame rfl

theorem conditionClear (head : CommandHead) (params : List Byte) :
    Statement (.conditionClear head params) := ofCommand rfl id

theorem conditionRaise (head : CommandHead) (params : List Byte) :
    Statement (.conditionRaise head params) := ofCommand rfl id

theorem reportMask (head : CommandHead) (params : List Byte) :
    Statement (.reportMask head params) := ofCommand rfl id

theorem grant : Statement .grant := noFrame rfl

theorem transmissionEnd : Statement .transmissionEnd := noFrame rfl

theorem byteReceived (character : Character) : Statement (.byteReceived character) := noFrame rfl

end Sys2Proof.Laws.FrameOfRow
end

