-- ==== Sys2Proof/Tests/Slice0.lean ====
section
/-! SUPPORT. Tests of the model: terms that WellFormed refuses, one or two steps of every row with results worked
out from the manual's tables and worked sequences, and for every statement with hypotheses a state
and operands that meet them. -/

namespace Sys2Proof.Tests

open Sys2Proof.Machine

-- One theorem after another: the kernel's evaluations would otherwise each take a thread.
set_option Elab.async false

/-! ### WellFormed refuses what no row can have -/

theorem test_wellFormed_body_too_long :
    [Instr.forwardedFrame 9 0 9 (.replicate 118 0), .cycleMarker 0 63 (.replicate 118 0),
      .pointsFrame 0 63 (.replicate 118 0), .outstationFrame 0 63 (.replicate 118 0)].all
      (fun i => !WellFormed i) = true := by decide +kernel

theorem test_wellFormed_source_of_telemetry :
    [Instr.cycleMarker 0 62 [0, 0, 0], .pointsFrame 0 62 [], .outstationFrame 0 62 []].all
      (fun i => !WellFormed i) = true := by decide +kernel

theorem test_wellFormed_forwarded_form :
    [Instr.forwardedFrame 1 5 63 [], .forwardedFrame 3 0 63 [], .forwardedFrame 4 0 63 []].all
      (fun i => !WellFormed i) = true := by decide +kernel

theorem test_wellFormed_no_code : WellFormed (.commandWithoutCode 1 63 [7, 1]) = false := by
  decide +kernel

theorem test_wellFormed_unknown_code : WellFormed (.unknownCommand ⟨1, 63, 7⟩ 0x01 []) = false := by
  decide +kernel

theorem test_wellFormed_requests :
    [Instr.setCadenceRun ⟨1, 63, 7⟩ [0, 1, 1, 2], .setCadenceStop ⟨1, 63, 7⟩ [0, 1, 1, 1],
      .holdOn ⟨1, 63, 7⟩ [0, 0, 9], .holdOff ⟨1, 63, 7⟩ [1, 0, 9]].all
      (fun i => !WellFormed i) = true := by decide +kernel

theorem test_wellFormed_params_too_long :
    (commandTable.all fun r =>
      !WellFormed (r.row ⟨1, 63, 7⟩ (.replicate 115 0 ++ [if r.code = 0x12 then 2 else 0]))) &&
      !WellFormed (.unknownCommand ⟨1, 63, 7⟩ 0x7F (.replicate 116 0)) = true := by
  decide +kernel

/-! ### Small states -/

/-- The head of a command to station 1 with tag 21h. -/
def head : CommandHead := ⟨1, 63, 0x21⟩

/-- The state a command or event leaves. -/
def run (i : Instr) (s : State) : State :=
  match exec i s with
  | .next t => t
  | .fault _ => s
  | .refused _ => s

/-- The body of the youngest queued reply. -/
def reply (s : State) : List Byte := (s.commands.replies.getLast?.map (·.body)).getD []

/-- The reservoir column 214/7 of the manual's worked case, in group 3 on channels 40..49 (12.1). -/
def column (raw : Option Nat) (decoded : Option Decoded) (band : Band) (alarm : AlarmRecord) :
    PointEntry :=
  { key := ⟨214, 7⟩
    cls := .analogue .bar ⟨6400, 32000, 1280, 1600, some 50, some 150, some 850, some 950, 20⟩
    firstLamp := 40, span := 10, group := 3, priority := 1, policy := .wink, raw := raw
    decoded := decoded, band := band, itemInvalid := false, sensorFault := false, travel := 0
    alarm := some alarm }

/-- The valve 57/12 of the manual's worked sequences on channels 60 and 61 (12.2). -/
def valve (position : Position) (travel : Nat) (alarm : AlarmRecord) : PointEntry :=
  { key := ⟨57, 12⟩, cls := .double 4 false, firstLamp := 60, span := 2, group := 0, priority := 2
    policy := .keep, raw := some 0, decoded := some (.position position), band := .normal
    itemInvalid := false, sensorFault := false, travel := travel, alarm := some alarm }

/-- The BINARY point 88/3 on channel 70 in group 5, with its alarm raised for the third time (12.4). -/
def alarmed : PointEntry :=
  { key := ⟨88, 3⟩, cls := .binary false false, firstLamp := 70, span := 1, group := 5
    priority := 1, policy := .keep, raw := some 1, decoded := some (.state true), band := .normal
    itemInvalid := false, sensorFault := false, travel := 0
    alarm := some ⟨.unack, some .abnormal, 3, some ⟨4, 20⟩⟩ }

/-- The record of an alarm in a state with a cause at a generation. -/
def alarmIn (state : AlarmState) (cause : Option Cause) (generation : Byte) : AlarmRecord :=
  ⟨state, cause, generation, none⟩

/-- A section that holds some points, each at an UP outstation of its own, with the lamps bound, first-up
on in groups 3 and 5, the counts those of the points, and supervision IN_STEP since moment 0. -/
def board (points : List PointEntry) (horn : Horn := .off) (holder : Option Key := none) :
    State :=
  State.settleLamps (State.rebind { State.reset with
    startDue := none
    points := points
    outstations := points.map fun e => ⟨e.key.outstation, 1, .up, 0, false⟩
    groups := Table.mapIdx (fun g _ => ⟨g == 2 || g == 4, if points.any (·.group == g + 1)
      then holder else none⟩) State.reset.groups
    supervisor := { State.reset.supervisor with state := .inStep, reference := some 0 }
    alarms := { State.reset.alarms with
      horn := horn
      unack := points.countP fun e => e.alarmState == .unack
      ringback := points.countP fun e => e.alarmState == .rtnUnack
      hornCount := points.countP fun e => e.alarmState == .unack } })

/-- A section whose transmitter is sending, so that what it queues stays queued. -/
def sending (s : State) : State :=
  { s with port := { s.port with sending := some (⟨5, 63, 9, []⟩, 70) } }

/-- Several commands taken one after another. -/
def runAll (is : List Instr) (s : State) : State := is.foldl (fun s i => run i s) s

/-- The clock at a moment given in ms. -/
def atMs (ms : Nat) (s : State) : State := { s with clock := 1000 * ms }

/-- The levels some channels are driven at. -/
def levels (s : State) (cs : List Nat) : List (Option Level) :=
  cs.map fun c => (s.lamps.channels[c]?).map (·.driven)

/-- The data of the records queued. -/
def records (s : State) : List RecordData := s.reports.queue.map (·.data)

/-- A line's record changed. -/
def withLine (i : Fin 8) (f : Line → Line) (s : State) : State := s.modifyLine i f

/-- A key that is up: an INPUT line with its debounced level HIGH. -/
def keyLine (f : InputFunction) (g : Nat) : Line → Line :=
  fun l => { l with function := f, group := g, level := some .high, timer := none }

/-! ### Resets and the Loop Port -/

/-- R159, R184: the straps read 62, the cause is RESET_PIN, the counts are gone. -/
theorem test_hardwareReset :
    let t := run (.hardwareReset (.resetPin 10) 62)
      { State.reset with unmapped := 9, clock := 77, startDue := none }
    (t.port.station, t.startDue, t.unmapped, t.clock) = (some 62, some .resetPin, 0, 0) := by
  decide +kernel

/-- R171: a low level of 9 µs at RESET gives no hardware reset. -/
theorem test_hardwareReset_short :
    let t := run (.hardwareReset (.resetPin 9) 62) { State.reset with unmapped := 9 }
    (t.port.station, t.unmapped) = (some 1, 9) := by decide +kernel

/-- R160: straps of 63 are PASS-ONLY, and no STARTED record is due. -/
theorem test_hardwareReset_passOnly :
    let t := run (.hardwareReset .detector 63) State.reset
    (t.port.station, t.startDue) = (none, none) := by decide +kernel

/-- R184, R186: the record of start-up carries cause POWER_UP, the station and a stamp of 0 and 0. -/
theorem test_startedRecordQueued :
    let t := run .startedRecordQueued State.reset
    (t.reports.queue, t.clock) = ([⟨.started .powerUp 1, ⟨0, 0⟩⟩], 40) := by decide +kernel

/-- R158: the eighth frame error in a row makes FRAME_ERRORS occur. -/
theorem test_badLength :
    let s := { State.reset with port := { State.reset.port with frameErrors := 7, badRun := 7 } }
    let t := run .badLength s
    (t.port.frameErrors, t.port.badRun, records t) =
      (8, 8, [.condition .frameErrors]) := by decide +kernel

/-- R156: the gap timer's expiry ends the frame being received and counts an error. -/
theorem test_truncated :
    let s := { State.reset with port := { State.reset.port with receiver := .length 30 } }
    let t := run .truncated s
    (t.port.receiver, t.port.frameErrors, t.clock) = (.hunting, 1, 30) := by decide +kernel

/-- R158: the frame error total stays at 65535, a bad run of 8 stays at 8, with no further cause. -/
theorem test_badCrc :
    let s := { State.reset with
      port := { State.reset.port with frameErrors := 65535, badRun := 8 } }
    let t := run .badCrc s
    (t.port.frameErrors, t.port.badRun, records t) = (65535, 8, []) := by decide +kernel

/-- R164: a POINTS frame from another source is counted FOREIGN and forwarded, not decoded. -/
theorem test_forwardedFrame_foreign :
    let t := run (.forwardedFrame 2 0 5 [1, 0, 0, 0, 0, 0, 0]) State.reset
    (t.port.foreign, t.port.fifo.length, t.unmapped) = (1, 1, 0) := by decide +kernel

/-- R165, and the manual's sharing example: a frame that finds the FIFO full is discarded, the count
rises from 40 to 41, and FORWARD_DROP, latched before, makes no record. -/
theorem test_forwardedFrame_full :
    let s := sending { State.reset with
      port := { State.reset.port with fifo := .replicate 4 ⟨5, 63, 9, []⟩, forwardDrops := 40 }
      reports := { State.reset.reports with latched := 0x80 } }
    let t := run (.forwardedFrame 5 63 9 []) s
    (t.port.forwardDrops, t.port.fifo.length, records t) = (41, 4, []) := by decide +kernel

/-- The manual's sharing example: at local-wait 7 the through frame goes, and the count becomes 8. -/
theorem test_grant_through :
    let s := { State.reset with
      port := { State.reset.port with
        fifo := [⟨5, 63, 9, []⟩, ⟨6, 63, 9, []⟩], localWait := 7 }
      commands := { State.reset.commands with replies := [⟨5, 63, 1, [1, 2, 0]⟩] } }
    let t := run .grant s
    (t.port.localWait, t.port.sending, t.port.fifo.length) =
      (8, some (⟨5, 63, 9, []⟩, 70), 1) := by decide +kernel

/-- The same example: at local-wait 8 with no reply, an EVENTS frame takes six of eight records, for 69
bytes on the line. -/
theorem test_grant_events :
    let s := { State.reset with
      port := { State.reset.port with fifo := [⟨5, 63, 9, []⟩], localWait := 8 }
      reports := { State.reset.reports with
        queue := .replicate 8 ⟨.tableCleared 0, ⟨0, 0⟩⟩ } }
    let t := run .grant s
    (t.port.localWait, t.port.sending.map (·.2), t.port.fifo.length, t.reports.queue.length) =
      (0, some 690, 1, 2) := by decide +kernel

/-- R166: five frames that arrive at a free transmitter are sent or wait; none is lost. -/
theorem test_grant_between_arrivals :
    let t := runAll (.replicate 5 (.forwardedFrame 5 63 9 [])) State.reset
    (t.port.sending, t.port.fifo.length, t.port.forwardDrops) =
      (some (⟨5, 63, 9, []⟩, 70), 4, 0) := by decide +kernel

/-- R169, rows 1 and 2: an arrival after the end of a transmission takes no part in its grant; one
before it does. -/
theorem test_grant_and_arrival :
    let s := sending { State.reset with commands := ⟨[⟨5, 63, 1, [7, 1, 0]⟩], 0, 0⟩ }
    let t := runAll [.transmissionEnd, .forwardedFrame 6 63 9 [], .grant] s
    let u := runAll [.forwardedFrame 6 63 9 [], .transmissionEnd, .grant] s
    ((t.port.sending.map (·.1.kind), t.port.fifo.length, t.port.localWait),
      (u.port.sending.map (·.1.kind), u.port.fifo.length, u.port.localWait)) =
      ((some 5, 1, 0), (some 6, 0, 1)) := by decide +kernel

/-- R169, rows 3 and 4: placing before queuing keeps the local-wait count; queuing before placing makes
it 0. -/
theorem test_grant_placing_and_queuing :
    let s := { State.reset with port := { State.reset.port with localWait := 5 } }
    let t := runAll [.forwardedFrame 6 63 9 [], .status head [], .grant] s
    let u := runAll [.status head [], .forwardedFrame 6 63 9 [], .grant] s
    ((t.port.sending.map (·.1.kind), t.commands.replies.length, t.port.localWait),
      (u.port.sending.map (·.1.kind), u.port.fifo.length, u.port.localWait)) =
      ((some 6, 1, 5), (some 5, 1, 0)) := by decide +kernel

/-- R169, rows 5 and 6: a reply granted before a RESTART is sent to its end; one that the RESTART finds
queued is not sent. -/
theorem test_grant_and_restart :
    let t := runAll [.status head [], .restart head []] State.reset
    let u := runAll [.status head [], .restart head [], .transmissionEnd, .grant] (sending State.reset)
    (t.port.sending.map (·.1.body.take 2), u.port.sending.map (·.1.body.take 2)) =
      (some [0x21, 0x01], some [0x21, 0x03]) := by decide +kernel

/-- R152: LOOP OUT carries A9h, the LEAD, least significant bit first, between a low start bit and a high
stop bit; then the start bit of LENGTH. -/
theorem test_loopOut :
    (List.range 11).map (fun us => ({ sending State.reset with clock := us }).loopOut) =
      [.low, .high, .low, .low, .high, .low, .high, .low, .high, .high, .low] := by decide +kernel

/-- R166: the transmitter is free at the end of the last stop bit. -/
theorem test_transmissionEnd :
    let s := { State.reset with
      port := { State.reset.port with sending := some (⟨5, 63, 9, []⟩, 70) } }
    let t := run .transmissionEnd s
    (t.port.sending, t.clock) = (none, 70) := by decide +kernel

/-- R154: the nine bytes 31h to 39h give 29B1h. -/
theorem test_crc :
    let check : List Byte := [0x31, 0x32, 0x33, 0x34, 0x35, 0x36, 0x37, 0x38, 0x39]
    crc16 check = 0x29B1 ∧ crcOf check = 0x29B1 := by
  decide +kernel

/-- R155: a LENGTH of 3 sets 5 bytes to come; a LENGTH of A9h is a frame error. The gap timer starts
again at the character's end (R156). -/
theorem test_byteReceived :
    let s := State.reset.withReceiver (.length 30)
    ((run (.byteReceived (characterOf 3)) s).port.receiver,
      (run (.byteReceived (characterOf 0xA9)) s).port.frameErrors) =
      (.collecting 5 [3] 40, 1) := by decide +kernel

/-- R152: data bits 1, 0, 0, 1, 0, 1, 0, 1 in the order they travel are A9h, a low stop bit or not. -/
theorem test_byteReceived_bits :
    (run (.byteReceived ⟨⟨#[.high, .low, .low, .high, .low, .high, .low, .high], rfl⟩, .low⟩)
      State.reset).port.receiver = .length 40 := by decide +kernel

/-- R156: a start bit 30 bit times after the character before is in time, one 31 bit times after it is
not, and its byte is examined as the first of hunting. -/
theorem test_byteReceived_gap :
    let s := State.reset.withReceiver (.length 50)
    ((run (.byteReceived (characterOf 3)) { s with clock := 50 }).port.receiver,
      (run (.byteReceived (characterOf 0xA9)) { s with clock := 51 }).port.receiver,
      (run (.byteReceived (characterOf 0xA9)) { s with clock := 51 }).port.frameErrors) =
      (.collecting 5 [3] 90, .length 91, 1) := by decide +kernel

/-- R184, R166: the STARTED record of 40 µs is queued, and sent, within a character that begins at 35. -/
theorem test_byteReceived_own_events :
    let t := run (.byteReceived (characterOf 0)) { State.reset with clock := 35 }
    (t.clock, t.startDue, t.port.sending.map (·.2), t.reports.queue) = (45, none, some 230, []) := by
  decide +kernel

/-! ### Markers, telemetry and outstations -/

/-- The manual's marker table: marker 63 at 3080 against reference 2950 is early and counts skew. -/
theorem test_cycleMarker_early :
    let s := board []
    let t := run (.cycleMarker 0 63 [0, 63, 1]) (atMs 3080 { s with
      supervisor := { s.supervisor with reference := some 2950, misses := 1 } })
    (t.supervisor.skews, t.supervisor.misses, t.supervisor.reference, t.supervisor.cycle) =
      (1, 1, some 2950, 63) := by decide +kernel

/-- 12.2: the fourth counting marker raises TRAVEL_STUCK, both lamps at ALERT, the horn SOUNDING. -/
theorem test_cycleMarker_travel :
    let t := run (.cycleMarker 0 63 [0, 9, 0]) (atMs 1000 (board [valve .travel 3 (alarmIn .normal none 0)]))
    (t.points.map (·.travel), records t, t.alarms.horn, levels t [60, 61]) =
      ([4], [.alarm ⟨57, 12⟩ .raised (some .travelStuck) 1], .sounding,
        [some (.flash .alert), some (.flash .alert)]) := by decide +kernel

/-- 12.3: the third miss at 3100 makes supervision LOST, with LOOP_LOST reported. -/
theorem test_lateBoundExpiry :
    let s := board []
    let t := run .lateBoundExpiry { s with
      supervisor := { s.supervisor with reference := some 2000, misses := 2 } }
    (t.supervisor.state, t.supervisor.reference, t.clock, records t) =
      (.lost, some 3000, 3100000, [.condition .loopLost]) := by decide +kernel

/-- 12.1: raw 29000 gives fill 882 and 9 lit, band HIGH, RAISED HIGH 1, and the lamps at FIRST. -/
theorem test_pointsFrame_high :
    let t := run (.pointsFrame 0 63 [1, 0x00, 0xD6, 0x07, 0x71, 0x48, 0x00])
      (board [column (some 20800) (some (.level 562 6)) .normal (alarmIn .normal none 0)])
    (t.points.map (·.decoded), records t, t.alarms.horn, levels t [40, 48, 49]) =
      ([some (.level 882 9)], [.alarm ⟨214, 7⟩ .raised (some .high) 1], .sounding,
        [some (.flash .first), some (.flash .first), some .dark]) := by decide +kernel

/-- 12.1: raw 30000 after HIGHHIGH gives fill 921, a same-side severity drop at the kept generation. -/
theorem test_pointsFrame_updated :
    let t := run (.pointsFrame 0 63 [1, 0x10, 0xD6, 0x07, 0x75, 0x30, 0xFE])
      (board [column (some 33000) (some (.level 1000 10)) .highHigh
        (alarmIn .unack (some .highHigh) 2)] .sounding (some ⟨214, 7⟩))
    (t.points.map (fun e => (e.band, e.alarm)), records t) =
      ([(.high, some (alarmIn .unack (some .high) 2))],
        [.alarm ⟨214, 7⟩ .updated (some .high) 2]) := by decide +kernel

/-- The manual's outage example: the UP report hands the fault-free state on; here an acknowledged
alarm whose column has come back to NORMAL clears. -/
theorem test_outstationFrame_up :
    let s := board [column (some 27600) (some (.level 828 8)) .normal (alarmIn .acked (some .high) 1)]
    let t := run (.outstationFrame 0 63 [0x00, 0xD6, 1])
      { s with outstations := [⟨214, 1, .down, 3, true⟩] }
    (t.outstations, records t) =
      ([⟨214, 1, .up, 0, false⟩], [.alarm ⟨214, 7⟩ .cleared (some .high) 1]) := by decide +kernel

/-- R51: a DOWN report leaves the silence count; the trusted value gives way to the stale policy. -/
theorem test_outstationFrame_down :
    let t := run (.outstationFrame 0 63 [0x00, 0xD6, 2])
      (board [column (some 20800) (some (.level 562 6)) .normal (alarmIn .normal none 0)])
    (t.outstations, levels t [40, 46]) =
      ([⟨214, 1, .down, 0, false⟩], [some (.flash .stale), some .dark]) := by decide +kernel

/-! ### Commands and Replies, Loop Time -/

/-- R172: an addressed body of one byte comes to nothing; a broadcast one is forwarded. -/
theorem test_commandWithoutCode :
    let t := run (.commandWithoutCode 1 63 [0x21]) State.reset
    let u := run (.commandWithoutCode 0 63 [0x21]) State.reset
    (t.commands.replies, t.port.fifo.length, u.port.fifo.length) = ([], 0, 1) := by decide +kernel

/-- R175: a code of no command is answered UNKNOWN_COMMAND with the tag and the code. -/
theorem test_unknownCommand :
    reply (run (.unknownCommand head 0x7F [1, 2]) State.reset) = [0x21, 0x7F, 1] := by
  decide +kernel

/-- R180, 11.4.2: 41 bytes of data: station, straps, NO_SYNC at the front, no faulted lamp at the end. -/
theorem test_status :
    let b := reply (run (.status head []) State.reset)
    (b.length, b.take 6, b.drop 42) = (44, [0x21, 0x01, 0, 1, 1, 0], [0, 0]) := by decide +kernel

/-- R174: with four slots in use even STATUS is dropped, and COMMAND_OVERRUN is reported. -/
theorem test_status_dropped :
    let s := sending { State.reset with commands := ⟨.replicate 3 ⟨5, 63, 1, []⟩, 1, 255⟩ }
    let t := run (.status head []) s
    (t.commands.replies.length, t.commands.dropped, records t) =
      (3, 255, [.condition .commandOverrun]) := by decide +kernel

/-- R161: the number changes, the reply goes under the old one; 63 is refused. -/
theorem test_setStation :
    let t := run (.setStation head [62]) State.reset
    (t.port.station, t.commands.replies.map (·.src),
      reply (run (.setStation head [63]) State.reset)) =
      (some 62, [1], [0x21, 0x02, 3]) := by decide +kernel

/-- R181: one STARTED record with cause COMMAND and the reply are left, the alarm record is fresh. -/
theorem test_restart :
    let t := run (.restart head []) (board [alarmed] .sounding (some ⟨88, 3⟩))
    (records t, reply t, t.points.map (·.alarm), t.alarms.horn, t.alarms.unack) =
      ([.started .command 1], [0x21, 0x03, 0], [some .fresh], .off, 0) := by decide +kernel

/-- R124: at moment 5000 a late bound of 1100 lies behind, so the reference advances to 4000. -/
theorem test_setTiming :
    let t := run (.setTiming head [0x03, 0xE8, 0, 100, 3, 5]) (atMs 5000 (board []))
    (t.supervisor.reference, t.supervisor.state) = (some 4000, .inStep) := by decide +kernel

/-- R124: a window above half the period is refused. -/
theorem test_setTiming_window :
    reply (run (.setTiming head [0, 100, 0, 51, 3, 5]) State.reset) = [0x21, 0x10, 3] := by
  decide +kernel

/-- R125: NO_SYNC, and a STOPPING generator is STOPPED with its reload in force. -/
theorem test_resync :
    let s := board []
    let g : Generator := { times := ⟨25, 25⟩, reload := some ⟨10, 11⟩, run := .stopping, phase := none }
    let t := run (.resync head []) { s with generators := { s.generators with alert := g } }
    (t.supervisor.state, t.supervisor.reference, t.generators.alert) =
      (.noSync, none, ⟨⟨10, 11⟩, none, .stopped, none⟩) := by decide +kernel

/-- The manual's ALERT table: RUN at 900 ms on the STOPPED generator starts an ON phase at once; the times
are clamped each on its own (R129). -/
theorem test_setCadenceRun :
    let s := { State.reset with
      generators := { State.reset.generators with alert := ⟨⟨10, 10⟩, none, .stopped, none⟩ } }
    let t := run (.setCadenceRun head [0, 25, 255, 1]) (atMs 900 s)
    t.generators.alert = ⟨⟨25, 250⟩, none, .running, some (.on, 1150)⟩ := by decide +kernel

/-- The same table: STOP at 650 ms makes ALERT STOPPING with the times pending. -/
theorem test_setCadenceStop :
    let s := { State.reset with generators := { State.reset.generators with
      alert := ⟨⟨10, 10⟩, none, .running, some (.off, 700)⟩ } }
    let t := run (.setCadenceStop head [0, 10, 10, 2]) (atMs 650 s)
    t.generators.alert = ⟨⟨10, 10⟩, some ⟨10, 10⟩, .stopping, some (.off, 700)⟩ := by
  decide +kernel

/-! ### The Point Table -/

/-- The POINT LOAD block of the reservoir column (11.4.1), with its H, HH and deadband. -/
def columnBlock (h hh : Nat) (deadband : Byte) : List Byte :=
  [0x00, 0xD6, 7, 0x33, 40, 10, 3, 0x11, 0, 0, 0x19, 0x00, 0x7D, 0x00, 0x05, 0x00, 0x06, 0x40,
    0, 50, 0, 150] ++ bytes16 h ++ bytes16 hh ++ [deadband]

/-- The manual's base set passes, and the entry is the column with fresh fields. -/
theorem test_pointLoad :
    let t := run (.pointLoad head (columnBlock 850 950 20)) State.reset
    (reply t, t.points, t.outstations) =
      ([0x21, 0x20, 0, 0, 1], [column none none .normal .fresh], [⟨214, 1, .unknown, 0, false⟩]) := by
  decide +kernel

/-- The manual's checks of analogue loads: H 900 above HH 880 is BAD_PARAM; a column over the lamp of
another entry is LAMP_OVERLAP. -/
theorem test_pointLoad_refused :
    let b := columnBlock 850 950 20
    (reply (run (.pointLoad head (columnBlock 900 880 20)) State.reset),
      reply (run (.pointLoad head (b.set 4 61)) (board [alarmed]))) =
      ([0x21, 0x20, 3], [0x21, 0x20, 8]) := by decide +kernel

/-- 12.4: retirement removes the alarm: REMOVED ABNORMAL 3, the horn OFF, the holder gone. -/
theorem test_pointDrop :
    let t := run (.pointDrop head [0, 88, 3]) (board [alarmed] .sounding (some ⟨88, 3⟩))
    (reply t, records t, t.alarms.horn, t.outstations, levels t [70]) =
      ([0x21, 0x21, 0, 0, 0], [.alarm ⟨88, 3⟩ .removed (some .abnormal) 3], .off, [],
        [some .dark]) := by decide +kernel

/-- R18, 11.4.3: offset 27 of a held, raised, first-up BINARY point: raw, decoded, record, stamp and
holder; then raw 1, value 1, quality GOOD, state UNACK, cause ABNORMAL, generation 3, stamp 4, 20. -/
theorem test_pointRead :
    (reply (run (.pointRead head [0, 88, 3]) (board [alarmed] .off (some ⟨88, 3⟩)))).drop 30 =
      [0x73, 0, 1, 0, 1, 0, 0, 0, 5, 1, 5, 3, 0, 4, 0, 20] := by decide +kernel

/-- R17: one TABLE_CLEARED record with the number removed, and no REMOVED record. -/
theorem test_tableClear :
    let t := run (.tableClear head []) (board [alarmed] .sounding (some ⟨88, 3⟩))
    (reply t, records t, t.points, t.outstations, t.alarms.horn) =
      ([0x21, 0x23, 0, 0, 1], [.tableCleared 1], [], [], .off) := by decide +kernel

/-- R19: the scan starts at the first key not below its start key; empty slots are 0/0. -/
theorem test_tableScan :
    (reply (run (.tableScan head [0, 57, 13])
      (board [valve .closed 0 .fresh, alarmed]))).take 11 =
      [0x21, 0x24, 0, 1, 0, 0, 88, 3, 0, 0, 0] := by decide +kernel

/-- R22: on to off clears the holder, whose lamps then show ALERT. -/
theorem test_groupSet :
    let t := run (.groupSet head [5, 0]) (board [alarmed] .sounding (some ⟨88, 3⟩))
    (t.groups[4], levels t [70]) = (⟨false, none⟩, [some (.flash .alert)]) := by decide +kernel

/-- R61: number, point count, comms state UP, silence, stale flag, limit. -/
theorem test_outstationRead :
    reply (run (.outstationRead head [0, 88]) (board [alarmed])) =
      [0x21, 0x30, 0, 0, 88, 0, 1, 1, 0, 0, 5] := by decide +kernel

/-- R54: the stale flag clears and quality return raises what the flag withheld. -/
theorem test_setStaleLimit :
    let e := { alarmed with alarm := some (alarmIn .normal none 0) }
    let t := run (.setStaleLimit head [9]) { (board [e]) with outstations := [⟨88, 1, .up, 5, true⟩] }
    (t.staleLimit, t.outstations, records t) =
      (9, [⟨88, 1, .up, 0, false⟩], [.alarm ⟨88, 3⟩ .raised (some .abnormal) 1]) := by
  decide +kernel

/-! ### The Alarm Sequence -/

/-- 12.1: ACK POINT with generation 1 leaves ACKED HIGH 1, the holder, and the horn OFF. -/
theorem test_ackPoint :
    let t := run (.ackPoint head [0, 214, 7, 1]) (board [column (some 29000)
      (some (.level 882 9)) .high (alarmIn .unack (some .high) 1)] .sounding (some ⟨214, 7⟩))
    (reply t, records t, t.alarms.horn, t.groups[2].holder, levels t [48, 49]) =
      ([0x21, 0x40, 0, 2, 1], [.alarm ⟨214, 7⟩ .acked (some .high) 1], .off, some ⟨214, 7⟩,
        [some .steady, some .dark]) := by decide +kernel

/-- 12.4: an acknowledgement with the old generation is STALE_ACK and gives the state and generation. -/
theorem test_ackPoint_stale :
    reply (run (.ackPoint head [0, 88, 3, 2]) (board [alarmed])) = [0x21, 0x40, 12, 1, 3] := by
  decide +kernel

/-- The manual's alarm example: ACK GROUP takes RTN_UNACK to NORMAL, with a count of 1. -/
theorem test_ackGroup :
    let e := { valve .closed 0 (alarmIn .rtnUnack (some .travelStuck) 1) with group := 3 }
    let t := run (.ackGroup head [3]) (board [e, alarmed] .sounding)
    (reply t, records t, t.alarms.ringback, t.alarms.horn) =
      ([0x21, 0x41, 0, 0, 1], [.alarm ⟨57, 12⟩ .acked (some .travelStuck) 1], 0, .sounding) := by
  decide +kernel

/-- R80, R79: the entries are acknowledged in key order, whatever their groups. -/
theorem test_ackAll :
    let t := run (.ackAll head []) (board [valve .travel 4 (alarmIn .unack (some .travelStuck) 1),
      alarmed] .sounding)
    (reply t, records t, t.alarms.unack, t.alarms.horn) =
      ([0x21, 0x42, 0, 0, 2], [.alarm ⟨57, 12⟩ .acked (some .travelStuck) 1,
        .alarm ⟨88, 3⟩ .acked (some .abnormal) 3], 0, .off) := by decide +kernel

/-- R72: a SOUNDING horn is SILENCED, an OFF one stays OFF. -/
theorem test_silence :
    ((run (.silence head []) (board [alarmed] .sounding)).alarms.horn,
      (run (.silence head []) (board [alarmed] .off)).alarms.horn) = (.silenced, .off) := by
  decide +kernel

/-- R73: without priority 1 the horn count is 0 and the horn OFF; an enable of 2 is BAD_PARAM. -/
theorem test_hornSet :
    let t := run (.hornSet head [0, 1, 1]) (board [alarmed] .sounding)
    (t.alarms.hornCount, t.alarms.horn, reply (run (.hornSet head [0, 2, 1]) State.reset)) =
      (0, .off, [0x21, 0x44, 3]) := by decide +kernel

/-! ### Lamp Channels -/

/-- R94: the run of channels takes the level, with source OVERRIDE in place of POINT. -/
theorem test_lampOverride :
    let t := run (.lampOverride head [69, 0, 2, 7]) (board [alarmed])
    (levels t [68, 69, 70, 71], (t.lamps.channels[70]).source) =
      ([some .dark, some (.flash .stale), some (.flash .stale), some .dark], .override) := by
  decide +kernel

/-- R94: 250 and 7 pass the last channel; a count of 0 is refused before that. -/
theorem test_lampOverride_refused :
    (reply (run (.lampOverride head [250, 0, 7, 2]) State.reset),
      reply (run (.lampOverride head [250, 0, 0, 2]) State.reset)) =
      ([0x21, 0x50, 7], [0x21, 0x50, 3]) := by decide +kernel

/-- R111: bank 4, lamp 6 is channel 70: key 88/3, no override, ALERT, POINT, not yet sensed. -/
theorem test_lampRead :
    let b := reply (run (.lampRead head [4]) (board [alarmed]))
    (b.length, (b.drop 40).take 6) = (105, [0, 88, 3, 0x03, 0x10, 0x00]) := by decide +kernel

/-- R96: the limit 5 is clamped to 10 s, and the level frozen is the point's. -/
theorem test_holdOn :
    let t := run (.holdOn head [1, 0, 5]) (atMs 100 (board [alarmed]))
    (t.lamps.holdEnds, (t.lamps.channels[70]).held, (t.lamps.channels[70]).source) =
      (some 10100, some (.flash .alert), .hold) := by decide +kernel

/-- R98: HOLD OFF ends HOLD with cause COMMAND. -/
theorem test_holdOff :
    let s := run (.holdOn head [1, 0, 60]) (board [alarmed])
    let t := run (.holdOff head [0, 0, 0]) s
    (records t, t.lamps.holdEnds, (t.lamps.channels[70]).held) =
      ([.holdEnded .command], none, none) := by decide +kernel

/-- R98: the expiry ends HOLD with cause EXPIRY. -/
theorem test_holdExpiry :
    let t := run .holdExpiry (run (.holdOn head [1, 0, 60]) (board [alarmed]))
    (records t, t.lamps.holdEnds, t.clock) = ([.holdEnded .expiry], none, 60000000) := by
  decide +kernel

/-- 12.6: PROVE of bank 2 at moment 0: RUNNING at step 0 to 200 ms, one slot reserved, no reply. -/
theorem test_prove :
    let t := run (.prove ⟨1, 63, 20⟩ [2]) (board [])
    (t.lamps.sweep, t.commands.reserved, t.commands.replies, (t.lamps.channels[37]).source) =
      (some ⟨2, 0, .running 200, 20, 0, 0⟩, 1, [], .prove) := by decide +kernel

/-- A sweep of bank 2 at a step, its dwell ending at a moment. -/
def sweeping (step ends : Nat) (own : BitVec 16) : State :=
  State.settleLamps { State.reset with
    startDue := none
    commands := ⟨[], 1, 0⟩
    lamps := { State.reset.lamps with sweep := some ⟨2, step, .running ends, 20, 0, own⟩ } }

/-- 12.6: at 2300 step 6 finds lamp 5 open: LAMP_FAULT (37, OPEN), then channel 38 STEADY. -/
theorem test_dwellEnd :
    let t := run (.dwellEnd 0) (sweeping 6 2300 0)
    (records t, t.lamps.sweep.map (fun w => (w.step, w.run)), levels t [37, 38]) =
      ([.lampFault 37 .opened], some (7, .running 2500), [some .dark, some .steady]) := by
  decide +kernel

/-- 12.6: step 16 completes at 4300: lamp 5 OPEN, pass set and fail set, then the LAMP_FAULT cause. -/
theorem test_dwellEnd_completion :
    let t := run (.dwellEnd (1#256 <<< 47)) (sweeping 16 4300 0x20)
    (reply t, t.commands.reserved, records t) =
      ([20, 0x53, 0, 2, 0, 0, 0, 0, 0, 2, 0, 0, 0, 0, 0, 0, 0, 0, 0, 0, 0xFF, 0xDF, 0, 0x20], 0,
        [.condition .lampFault]) := by decide +kernel

/-- Channel 37 with a fault and a mismatch run, driven STEADY by an override (the manual's open lamp). -/
def lamp37 (mismatch : Nat) (fault : Option FaultKind) : State :=
  State.settleLamps ((board []).mapChannels fun c ch =>
    if c = 37 then { ch with override := some .steady, mismatch := mismatch, fault := fault }
    else ch)

/-- The manual's open lamp: CLEAR LAMP FAULTS of bank 2 answers count 1. -/
theorem test_clearLampFaults :
    let t := run (.clearLampFaults head [2]) (lamp37 1 (some .opened))
    (reply t, (t.lamps.channels[37]).fault, (t.lamps.channels[37]).mismatch) =
      ([0x21, 0x54, 0, 0, 1], none, 0) := by decide +kernel

/-- The manual's open lamp: the third mismatch sets OPEN, with the record and then the cause. -/
theorem test_senseTimerExpiry :
    let t := run (.senseTimerExpiry 0) (lamp37 2 none)
    ((t.lamps.channels[37]).fault, (t.lamps.channels[37]).mismatch, records t, t.clock) =
      (some .opened, 0, [.lampFault 37 .opened, .condition .lampFault], 200000) := by
  decide +kernel

/-- The manual's ALERT table: the OFF phase of the STOPPING generator ends at 700, and the reload is in
force. -/
theorem test_phaseEnd_stopping :
    let s := { State.reset with generators := { State.reset.generators with
      alert := ⟨⟨10, 10⟩, some ⟨12, 13⟩, .stopping, some (.off, 700)⟩ } }
    (run (.phaseEnd .alert 0) s).generators.alert = ⟨⟨12, 13⟩, none, .stopped, none⟩ := by
  decide +kernel

/-- R101, R128: the ON phase ends at 250 with the OFF phase of 25 units, and an open lamp at ALERT
mismatches. -/
theorem test_phaseEnd_on :
    let t := run (.phaseEnd .alert 0) (board [alarmed])
    (t.generators.alert.phase, (t.lamps.channels[70]).mismatch, (t.lamps.channels[70]).sensed) =
      (some (.off, 500), 1, .absent) := by decide +kernel

/-! ### Panel Lines -/

/-- R147, R138: an ACK_GROUP line stores its group, a step count of 0 is taken as 10 ms. -/
theorem test_lineSet :
    let t := run (.lineSet head [3, 0, 1, 2, 16, 4, 0]) State.reset
    ((t.line 3).function, (t.line 3).group, (t.line 3).polarity, t.panel.debounce, reply t) =
      (.ackGroup, 16, .activeHigh, 10, [0x21, 0x60, 0]) := by decide +kernel

/-- R147: group 0 with ACK_GROUP is BAD_PARAM, and is stored as 0 with another function. -/
theorem test_lineSet_group :
    (reply (run (.lineSet head [3, 0, 1, 2, 0, 4, 5]) State.reset),
      ((run (.lineSet head [3, 0, 1, 3, 9, 4, 5]) State.reset).line 3).group) =
      ([0x21, 0x60, 3], 0) := by decide +kernel

/-- R146: only the lines of the mask are written. -/
theorem test_lineWrite :
    let t := run (.lineWrite head [0x05, 0x06]) (State.reset.modifyLine 0 fun l => { l with latch := true })
    ((t.line 0).latch, (t.line 1).latch, (t.line 2).latch) = (false, false, true) := by
  decide +kernel

/-- R149: a settling INPUT line, an active INPUT line, and an OUTPUT line whose LATCH is inactive. -/
theorem test_lineRead :
    let s := (State.reset.modifyLine 1 fun l => { l with level := some .low, timer := none }).modifyLine
      2 fun l => { l with direction := .output, timer := none }
    (reply (run (.lineRead head []) s)).take 6 = [0x21, 0x62, 0, 0, 10, 5] := by decide +kernel

/-- R139: a change restarts the timer; a level equal to the one standing is no change. -/
theorem test_pinChange :
    let s := atMs 310 (State.reset.modifyLine 2 (keyLine .lampTest 0))
    (((run (.pinChange 2 .low) s).line 2).timer, ((run (.pinChange 2 .high) s).line 2).timer) =
      (some 310, none) := by decide +kernel

/-- The manual's key example: PL1's press at 80 ms queues its KEY record and silences the horn. -/
theorem test_debounceExpiry_press :
    let s := run (.pinChange 1 .low) (atMs 30 ((board [alarmed] .sounding).modifyLine 1 (keyLine .silence 0)))
    let t := run (.debounceExpiry 1) s
    (records t, t.alarms.horn, t.clock) = ([.key 1 .silence 0], .silenced, 80000) := by
  decide +kernel

/-- R140, R142: a LAMP_TEST line that settles active begins lamp test without a KEY record. -/
theorem test_debounceExpiry_settling :
    let s := State.reset.modifyLine 2 fun l => { l with function := .lampTest, pin := .low }
    let t := run (.debounceExpiry 2) s
    (records t, t.panel.lampTest, (t.lamps.channels[9]).source) = ([], true, .test) := by
  decide +kernel

/-! ### Events and Conditions -/

/-- R193, R194: LOOP_LOST is latched again while supervision is LOST; EVENT_LOSS takes the lost count. -/
theorem test_conditionClear :
    let s := { State.reset with
      supervisor := { State.reset.supervisor with state := .lost, reference := some 0 }
      reports := ⟨[], 9, 0x0B, 0xFF⟩ }
    let t := run (.conditionClear head [0xFF]) s
    (reply t, t.reports.lost, records t) = ([0x21, 0x70, 0, 0x01], 0, [.condition .loopLost]) := by
  decide +kernel

/-- R195, R192: EVENT_LOSS makes no record, LAMP_FAULT outside the mask makes none, FORWARD_DROP does. -/
theorem test_conditionRaise :
    let t := run (.conditionRaise head [0x98]) { State.reset with reports := ⟨[], 0, 0, 0xEF⟩ }
    (reply t, records t, t.reports.lost) = ([0x21, 0x71, 0, 0x98], [.condition .forwardDrop], 0) := by
  decide +kernel

/-- R196, R197: a mask without the latched condition takes the FAULT level away, and makes no record. -/
theorem test_reportMask :
    let s := { State.reset with reports := ⟨[], 0, 0x10, 0xFF⟩ }
    let t := run (.reportMask head [0xEF]) s
    (s.faultLevel, t.faultLevel, records t, t.reports.latched) = (true, false, [], 0x10) := by
  decide +kernel

/-- R188: a record that finds 48 queued is lost, and latches EVENT_LOSS without a record. -/
theorem test_record_lost :
    let r := Reports.record ⟨0, 0⟩ (.tableCleared 0) ⟨.replicate 48 ⟨.condition .loopLost, ⟨0, 0⟩⟩, 254, 0, 0xFF⟩
    (r.queue.length, r.lost, r.latched) = (48, 255, 0x08) := by decide +kernel

/-- 11.7: the RAISED record of 214/7 is kind 1, stamp, 00h D6h 07h, 11h, 01h. -/
theorem test_eventRecord_bytes :
    EventRecord.bytes ⟨.alarm ⟨214, 7⟩ .raised (some .high) 1, ⟨0x1234, 0x56⟩⟩ =
      [1, 0x12, 0x34, 0x00, 0x56, 0x00, 0xD6, 0x07, 0x11, 0x01] := by decide +kernel

/-! ### The step -/

/-- The command in front of the queue is taken with the queue's rest. -/
theorem test_step :
    let s := { State.reset with pending := [.setStation head [9], .grant] }
    (match step s with
      | .next t => (t.port.station, t.pending)
      | _ => (none, [])) = (some 9, [.grant]) := by decide +kernel

/-! ### The hypotheses of the statements can be met: the step, the Loop Port, taking commands -/

/-- A section with the BINARY alarm 88/3 alone, and one with the valve and the alarm. -/
def one : State := board [alarmed] .sounding (some ⟨88, 3⟩)
def two : State := board [valve .travel 3 (alarmIn .normal none 0), alarmed] .sounding

/-- A PASS-ONLY controller. -/
def passOnly : State := run (.hardwareReset .detector 0) State.reset

/-- HOLD is in effect in the section, whose reply is in transmission. -/
def held : State := runAll [.holdOn head [1, 0, 60], .grant] one

/-- A section with nothing to send has no grant due. -/
theorem resting {s : State} (hf : s.port.fifo = [] := by rfl)
    (hr : s.commands.replies = [] := by rfl) (hq : s.reports.queue = [] := by rfl) :
    NoGrantDue s := .inr ⟨hf, .inr ⟨hr, hq⟩⟩

/-- A section that is sending has no grant due. -/
theorem sending_noGrantDue (s : State) : NoGrantDue (sending s) := .inl rfl

/-- A station with the number 1 and a free slot takes the head's commands. -/
theorem addressed {s : State} (hn : s.port.station = some 1)
    (hr : s.commands.replies.length + s.commands.reserved < 4)
    (hg : NoGrantDue s := by exact resting) : Addressed s head :=
  ⟨⟨hn, by decide, by decide⟩, rfl, hr, hg⟩

theorem addressed_held : Addressed held head :=
  addressed (by decide +kernel) (by decide +kernel) (.inl (by decide +kernel))

theorem assigned {s : State} (hn : s.port.station = some 1) : AssignedAs s 1 :=
  ⟨hn, by decide, by decide⟩

theorem addressed_reset : Addressed State.reset head := addressed rfl (by decide)
theorem addressed_one : Addressed one head := addressed rfl (by decide)
theorem addressed_two : Addressed two head := addressed rfl (by decide)

theorem keysRise_one : KeysRise one := by unfold KeysRise; decide +kernel
theorem keysRise_two : KeysRise two := by unfold KeysRise; decide +kernel

theorem witness_StepTakesTheFrontCommand :
    ({ State.reset with pending := [.grant, .badCrc] } : State).pending = .grant :: [.badCrc] := rfl

/-- No own event is due where `ownEvent` names none. -/
theorem nothing_due {s : State} (h : s.ownEvent = none) (e : OwnEvent) : ¬ Due s e := by
  intro hd
  have := ownEvent_isSome hd
  rw [h] at this
  cases this

theorem witness_IdleStepTakesADueEventOrPassesTime :
    (State.reset.pending = [] ∧ ∀ e, ¬ Due State.reset e) ∧
      (let s := { State.reset with clock := 40 }
       s.pending = [] ∧ ∃ e, Due s e) :=
  ⟨⟨rfl, nothing_due (by decide +kernel)⟩, rfl, .started, rfl, by decide⟩

theorem witness_HardwareResetGivesEveryBlockItsValues :
    (∃ low, ResetSource.resetPin 9 = .resetPin low ∧ low < 10 ∧ NoGrantDue State.reset) ∧
      (∀ low, ResetSource.resetPin 10 = .resetPin low → 10 ≤ low) ∧
      (∀ low, ResetSource.detector = .resetPin low → 10 ≤ low) := by
  refine ⟨⟨9, rfl, by decide, resting⟩, ?_, ?_⟩ <;> intro low h <;> cases h
  decide

theorem witness_StartUpQueuesOneStartedRecord :
    (∀ low, ResetSource.resetPin 10 = .resetPin low → 10 ≤ low) ∧ ((0 : BitVec 6) = 0 ∧ (63 : BitVec 6) = 63) ∧ ((1 : BitVec 6) ≠ 0 ∧ (1 : BitVec 6) ≠ 63) ∧
      ((62 : BitVec 6) ≠ 0 ∧ (62 : BitVec 6) ≠ 63) :=
  ⟨fun low h => by cases h; decide, by decide⟩

/-- Reset with its STARTED record queued and sent: a section with nothing due for a while. -/
def settled : State := { State.reset with startDue := none }

/-- Nothing but a gap timer comes due in a settled section before its first whole 50 ms. -/
theorem settled_quiet (r : Receiver) (moment : Nat) (h : moment ≤ 50000) :
    QuietUntil moment (settled.withReceiver r) := by
  intro e he c h0 hc
  have hnow : c / 1000 < 50 := by omega
  cases e with
  | gap => exact absurd rfl he
  | grant => exact fun h => h (resting (s := { settled.withReceiver r with clock := c }))
  | started => simp [Due, settled]
  | sent => simp [Due, settled, State.withReceiver, State.reset, State.afterReset]
  | lateBound => simp [Due, settled, State.withReceiver, State.reset, State.afterReset]
  | dwell => simp [Due, settled, State.withReceiver, State.reset, State.afterReset]
  | hold => simp [Due, settled, State.withReceiver, State.reset, State.afterReset]
  | phase k =>
    cases k <;> simp [Due, settled, State.withReceiver, State.reset, State.afterReset,
      Generators.get, Generator.reset, State.now] <;> omega
  | debounce i =>
    have : (settled.line i).timer = some 0 := by revert i; decide
    rintro ⟨m, hm, hd⟩
    have hm' : (settled.line i).timer = some m := hm
    have hd' : m + 50 ≤ c / 1000 := hd
    rw [this] at hm'
    cases hm'
    omega
  | sense =>
    intro h
    have h' : 200 ≤ c / 1000 := h
    omega

theorem witness_ReceiverDelineatesFrames :
    NoGrantDue State.reset ∧
      Carries (characterOf 0xA9) 0xA9 ∧
      (State.reset.withReceiver (.length 30)).port.receiver = .length 30 ∧
      30 < ({ State.reset with clock := 31 } : State).clock ∧
      ({ State.reset with clock := 30 } : State).clock ≤ 30 ∧
      QuietUntil 10 (settled.withReceiver (.length 30)) ∧
      State.reset.port.receiver = .hunting ∧
      (3 ≤ (3 : Byte).toNat ∧ (120 : Byte).toNat ≤ 120) ∧
      ((2 : Byte).toNat < 3 ∧ 120 < (121 : Byte).toNat) ∧
      (State.reset.withReceiver (.collecting 2 [3] 30)).port.receiver = .collecting 2 [3] 30 ∧
      (let f : Frame := ⟨1, 0, 63, [0, 5, 1]⟩
       let crc := crcOf f.checked
       let hi := crc.extractLsb' 8 8
       let got := f.checked ++ [hi]
       (State.reset.withReceiver (.collecting 1 got 30)).port.receiver = .collecting 1 got 30 ∧
         crcOf f.checked = hi ++ crc.extractLsb' 0 8 ∧
         crcOf f.checked ≠ hi ++ (crc.extractLsb' 0 8 + 1)) :=
  ⟨resting, carries_characterOf _, rfl, by decide, by decide, settled_quiet _ _ (by decide), rfl,
    by decide +kernel⟩

theorem witness_ReceivingAFramesBytesIsItsArrival :
    ∀ f ∈ [Frame.mk 9 0 9 [], Frame.mk 9 0 9 (.replicate 117 0xA9)],
      settled.port.receiver = .hunting ∧ f.body.length ≤ 117 ∧ NoGrantDue settled ∧
        List.Forall₂ Carries (f.sentAs.map characterOf) f.sentAs ∧
        QuietUntil (settled.clock + 10 * f.sentAs.length) settled := by
  intro f hf
  have hl : f.body.length ≤ 117 ∧ settled.clock + 10 * f.sentAs.length ≤ 50000 := by
    revert f; decide +kernel
  exact ⟨rfl, hl.1, resting, List.forall₂_map_left_iff.2 (List.forall₂_same.2 fun b _ => carries_characterOf b),
    settled_quiet .hunting _ hl.2⟩

theorem witness_FrameErrorsAreCounted :
    (Instr.badLength = .badLength ∨ Instr.badLength = .badCrc) ∧
      (NoGrantDue State.reset ∧ NoGrantDue passOnly) ∧
      State.reset.port.station.isSome ∧ passOnly.port.station = none ∧
      State.reset.port.receiver = .hunting ∧
      (State.reset.withReceiver (.length 30)).port.receiver = .length 30 ∧
      (State.reset.withReceiver (.collecting 5 [3] 30)).port.receiver = .collecting 5 [3] 30 :=
  ⟨.inl rfl, ⟨resting, resting⟩, by decide +kernel⟩

theorem witness_ForwardingDecision :
    (State.reset.port.station = some 1 ∧ NoGrantDue State.reset) ∧ (1 : Byte) = 1 ∧
      ((5 : Byte) ≠ 1 ∧ (5 : Byte) ≠ 63 ∧ ((4 : Byte) = 1 ∨ (4 : Byte) = 2 ∨ (4 : Byte) = 3 ∨
        (4 : Byte) = 4)) ∧
      ((63 : Byte) ≠ 1 ∧ (2 : Byte) ≠ 1 ∧ (2 : Byte) ≠ 0) ∧
      ((5 : Byte) ≠ 1 ∧ (5 : Byte) ≠ 2 ∧ (5 : Byte) ≠ 3 ∧ (5 : Byte) ≠ 4) :=
  ⟨⟨rfl, resting⟩, by decide +kernel⟩

theorem witness_PassOnlyRepeatsEveryFrame :
    passOnly.port.station = none ∧ NoGrantDue passOnly ∧
      frameOf (.restart head []) = some ⟨4, 1, 63, [0x21, 0x03]⟩ :=
  ⟨rfl, resting, rfl⟩

/-- A controller with a through frame, a reply or a record waiting, and a local-wait count. -/
def waiting (fifo replies : List Frame) (queue : List EventRecord) (localWait : Nat) : State :=
  { State.reset with
    port := { State.reset.port with fifo := fifo, localWait := localWait }
    commands := ⟨replies, 0, 0⟩, reports := ⟨queue, 0, 0, 0xFF⟩ }

/-- A local frame waits. -/
def LocalWaits (s : State) : Prop :=
  s.port.station.isSome ∧ (s.commands.replies ≠ [] ∨ s.reports.queue ≠ [])

theorem witness_GrantChoosesByTheCases :
    let f : Frame := ⟨5, 63, 9, []⟩
    let e : EventRecord := ⟨.tableCleared 0, ⟨0, 0⟩⟩
    ({ State.reset.port with sending := some (f, 70) } : Port).sending.isSome ∧
      (State.reset.port.sending = none ∧ NoGrantDue State.reset) ∧
      (let s := { sending State.reset with clock := 69 }
       s.port.sending = some (f, 70) ∧ (f.sentAs[6]?).isSome ∧ 9 < 10 ∧
         s.clock + 10 * f.sentAs.length = 70 + 10 * 6 + 9) ∧
      ((waiting [f] [f] [] 7).port.sending = none ∧ (waiting [f] [f] [] 7).port.localWait < 8 ∧
        LocalWaits (waiting [f] [f] [] 7)) ∧
      ((waiting [f] [] [] 8).port.fifo = f :: [] ∧ ¬ LocalWaits (waiting [f] [] [] 8)) ∧
      (8 ≤ (waiting [f] [f] [] 8).port.localWait ∧ LocalWaits (waiting [f] [f] [] 8) ∧
        (waiting [f] [f] [] 8).commands.replies = f :: []) ∧
      ((waiting [] [] [e] 0).port.fifo = [] ∧ LocalWaits (waiting [] [] [e] 0) ∧
        (waiting [] [] [e] 0).commands.replies = []) ∧
      (¬ LocalWaits (waiting [] [] [] 0) ∧ (waiting [] [] [] 0).port.fifo = []) := by
  unfold LocalWaits NoGrantDue; decide +kernel

theorem witness_ChecksBeforeTheCommandsOwn :
    AssignedAs State.reset 1 ∧ NoGrantDue State.reset ∧ ([] : List Byte).length < 2 ∧
      ([9] : List Byte).length < 2 ∧
      Addressed State.reset head ∧ (∀ r ∈ commandTable, r.code ≠ 0x73) ∧
      (∀ r ∈ commandTable, (List.replicate (r.length + 1) (0 : Byte)).length ≠ r.length) :=
  ⟨assigned rfl, resting, by decide, by decide, addressed_reset, by decide +kernel,
    by decide +kernel⟩

theorem witness_CommandWithNoSlotIsDropped :
    let s := sending { State.reset with commands := ⟨.replicate 4 ⟨5, 63, 1, []⟩, 0, 0⟩ }
    let u := sending { State.reset with commands := ⟨.replicate 3 ⟨5, 63, 1, []⟩, 1, 255⟩ }
    (AssignedAs s head.dest ∧ NoGrantDue s ∧ head.src = 63 ∧
      4 ≤ s.commands.replies.length + s.commands.reserved) ∧
    (AssignedAs u head.dest ∧ NoGrantDue u ∧ 4 ≤ u.commands.replies.length + u.commands.reserved) ∧
    ∃ r ∈ commandTable, Instr.status head [] = r.row head [] :=
  ⟨⟨assigned rfl, sending_noGrantDue _, rfl, by decide⟩,
    ⟨assigned rfl, sending_noGrantDue _, by decide⟩, _, List.mem_cons_self, rfl⟩

theorem witness_CommandsNotForThisStationPassOn :
    AssignedAs State.reset 1 ∧ NoGrantDue State.reset ∧ (2 : Byte) ≠ 1 ∧ (2 : Byte) ≠ 0 ∧
      (∀ r ∈ commandTable, r.code ≠ 0x73) ∧ (∃ r ∈ commandTable, r.broadcast = false) ∧ (0 : Byte) ≠ 1 ∧
      ((5 : Byte) ≠ 63 ∧ (5 : Byte) ≠ 1) ∧ (1 : Byte) = 1 :=
  ⟨assigned rfl, resting, by decide, by decide, by decide +kernel, ⟨_, List.mem_cons_self, rfl⟩, by decide, by decide, rfl⟩

theorem witness_BroadcastActsAsTheAddressedCommand :
    (AssignedAs State.reset 1 ∧ NoGrantDue State.reset) ∧ ∃ r ∈ commandTable, r.broadcast = true ∧
      ([0] : List Byte).length ≠ r.length ∧ ([] : List Byte).length = r.length :=
  ⟨⟨assigned rfl, resting⟩, ⟨.restart, 0x03, 0, true⟩, List.mem_cons_of_mem _ (List.mem_cons_of_mem _
    List.mem_cons_self), rfl, by decide, rfl⟩

theorem witness_StatusReportsTheState :
    Addressed one head ∧ (Addressed held head ∧ held.lamps.holdEnds = some 60000) ∧
      (sweeping 3 800 0).lamps.sweep.isSome ∧ one.lamps.sweep = none ∧
      one.lamps.holdEnds = none :=
  ⟨addressed_one, ⟨addressed_held, by decide +kernel⟩, by decide +kernel⟩

theorem witness_SetStationAnswersUnderTheOldNumber :
    Addressed State.reset head ∧ (1 ≤ (1 : Byte).toNat ∧ (62 : Byte).toNat ≤ 62) ∧
      ((0 : Byte).toNat = 0 ∧ 62 < (63 : Byte).toNat) :=
  ⟨addressed_reset, by decide⟩

theorem witness_SetTimingKeepsTheLateBoundAhead :
    let most : List Byte := [0x13, 0x88, 0x09, 0xC4, 255, 255]
    let least : List Byte := [0, 100, 0, 10, 0, 0]
    Addressed (board []) head ∧ most.length = 6 ∧
      (100 ≤ field16 least 0 ∧ field16 most 0 ≤ 5000 ∧ field16 most 0 % 10 = 0 ∧
        10 ≤ field16 least 2 ∧ 2 * field16 most 2 ≤ field16 most 0) ∧
      (field16 [0, 90, 0, 10, 0, 0] 0 < 100 ∧ 5000 < field16 [0x13, 0x92, 0, 10, 0, 0] 0 ∧
        field16 [0, 105, 0, 10, 0, 0] 0 % 10 ≠ 0 ∧ field16 [0, 100, 0, 9, 0, 0] 2 < 10 ∧
        field16 [0, 100, 0, 51, 0, 0] 0 < 2 * field16 [0, 100, 0, 51, 0, 0] 2) ∧
      State.reset.supervisor.reference = none ∧ (board []).supervisor.reference = some 0 :=
  ⟨addressed rfl (by decide), by decide +kernel⟩

theorem witness_ResyncRealignsAndRecovers :
    let s := { two with supervisor := { two.supervisor with state := .lost } }
    Addressed s head ∧ KeysRise s ∧ s.supervisor.state = .lost ∧
      Addressed two head ∧ KeysRise two ∧ two.supervisor.state ≠ .lost :=
  ⟨addressed rfl (by decide), keysRise_two, rfl, addressed_two, keysRise_two, by decide⟩

theorem witness_SetCadenceActsByTheRunState :
    let s := { State.reset with
      generators := { State.reset.generators with stale := ⟨⟨10, 10⟩, none, .stopped, none⟩ } }
    Addressed s head ∧ ([4, 0, 255, 1] : List Byte).length = 4 ∧
      (4 < field8 [5, 1, 1, 1] 0 ∧ field8 [0, 1, 1, 0] 3 = 0 ∧ 2 < field8 [0, 1, 1, 3] 3) ∧
      cadenceCode .stale = field8 [4, 0, 255, 1] 0 ∧ cadenceCode .alert = field8 [0, 1, 1, 2] 0 ∧
      field8 [4, 0, 255, 1] 3 = 1 ∧ field8 [0, 1, 1, 2] 3 = 2 ∧
      (s.generators.get .stale).run = .stopped ∧ (s.generators.get .alert).run ≠ .stopped :=
  ⟨addressed rfl (by decide), by decide +kernel⟩

/-! ### The hypotheses can be met: the tables -/

theorem tablesInOrder_reset : TablesInOrder State.reset where
  points := List.Pairwise.nil
  few := by decide
  keys := by intro e he; cases he
  outstations := List.Pairwise.nil
  fewOutstations := by decide
  counted := fun _ => rfl
  spans := by intro e he; cases he
  apart := List.Pairwise.nil
  bound := by
    intro c h
    simp [State.reset, State.afterReset, Channel.reset]

/-- The bindings a section is built with are those its points give. -/
theorem board_bound (points : List PointEntry) (horn : Horn) (holder : Option Key) (c : Nat)
    (h : c < 256) : ((board points horn holder).lamps.channels[c]).binding =
      (points.find? fun e => e.firstLamp ≤ c ∧ c < e.firstLamp + e.span).map (·.key) := by
  simp only [board, settleLamps_channel, State.rebind, mapChannels_channel, Channel.driveAs]
  congr 2
  funext e
  simp [PointEntry.owns]

theorem tablesInOrder_one : TablesInOrder one where
  points := by decide +kernel
  few := by decide +kernel
  keys := by decide +kernel
  outstations := by decide +kernel
  fewOutstations := by decide +kernel
  counted := by
    intro n
    by_cases hn : n = 88
    · subst hn; decide +kernel
    · have h : ¬ (88 = n) := fun h => hn h.symm
      have hp : one.points = [alarmed] := rfl
      have ho : one.outstations = [⟨88, 1, .up, 0, false⟩] := rfl
      simp [State.outstation, hp, ho, alarmed, h]
  spans := by
    intro e he
    have : e = alarmed := by simpa [one, board, State.settleLamps, State.rebind, State.mapChannels] using he
    subst this
    exact ⟨by decide, rfl⟩
  apart := by decide +kernel
  bound := fun c h => board_bound _ _ _ c h

/-- A BINARY block (11.4.1) with its key, first lamp, group, priority and policy. -/
def binaryBlock (outstation : Nat) (index lamp group priority : Byte) : List Byte :=
  bytes16 outstation ++ [index, 0x11, lamp, 1, group, priority] ++ .replicate 19 0

/-- A table of 512 points, all on lamp 0, which no loads could build, since the lamps of loaded points
lie apart. -/
def fullPoints : State :=
  { State.reset with points := (List.range 512).map fun n =>
      { alarmed with key := ⟨n / 256 + 1, n % 256⟩, firstLamp := 0 } }

/-- 32 outstations. -/
def fullOutstations : State :=
  { State.reset with outstations := (List.range 32).map fun n => ⟨n + 1, 1, .up, 0, false⟩ }

theorem goodFields : ¬ BadFields (binaryBlock 4095 255 255 16 0x33) := by
  unfold BadFields; decide +kernel

theorem goodAnalogue : ¬ BadAnalogue (binaryBlock 4095 255 255 16 0x33) := by
  rintro ⟨h, _⟩; revert h; decide +kernel

theorem freeLamp : ¬ LampTaken fullPoints (binaryBlock 4095 255 255 16 0x33) := by
  rintro ⟨e, he, _, c, h1, h2, h3, _⟩
  simp only [fullPoints, List.mem_map] at he
  obtain ⟨n, _, rfl⟩ := he
  have h4 : field8 (binaryBlock 4095 255 255 16 0x33) 4 = 255 := by decide +kernel
  simp only [alarmed] at h2
  omega

theorem newKey : fullPoints.point (blockKey (binaryBlock 4095 255 255 16 0x33)) = none := by
  decide +kernel

theorem witness_PointLoadIsRefused_fields :
    Addressed State.reset head ∧ (∀ e ∈ State.reset.points, 1 ≤ e.span) ∧
      (binaryBlock 0 255 255 16 0x33).length = 27 ∧ BadFields (binaryBlock 0 255 255 16 0x33) ∧
      BadFields (binaryBlock 4096 255 255 16 0x33) ∧ BadFields (binaryBlock 1 0 0 17 0x33) ∧
      BadFields (binaryBlock 1 0 0 0 0x41) :=
  ⟨addressed_reset, (by intro e he; cases he), by decide +kernel, by unfold BadFields; decide +kernel,
    by unfold BadFields; decide +kernel, by unfold BadFields; decide +kernel,
    by unfold BadFields; decide +kernel⟩

theorem witness_PointLoadIsRefused_range :
    let b := (columnBlock 850 950 20).set 4 247
    ¬ BadFields b ∧ 256 < field8 b 4 + field8 b 5 ∧
      field8 (b.set 4 246) 4 + field8 (b.set 4 246) 5 = 256 := by
  refine ⟨by unfold BadFields; decide +kernel, by decide +kernel⟩

theorem witness_PointLoadIsRefused_analogue :
    let b := columnBlock 850 950 20
    let bad := columnBlock 900 880 20
    let meeting := ((((columnBlock 600 0xFFFF 100).set 18 0xFF).set 19 0xFF).set 20 1).set 21 0x90
    (¬ BadFields bad ∧ field8 bad 4 + field8 bad 5 ≤ 256 ∧ BadAnalogue bad) ∧
      (¬ BadFields meeting ∧ BadAnalogue meeting ∧ SidesMeet meeting) ∧ ¬ BadAnalogue b := by
  refine ⟨⟨by unfold BadFields; decide +kernel, by decide +kernel, by decide +kernel, ?_⟩,
    ⟨by unfold BadFields; decide +kernel, ⟨by decide +kernel, ?_⟩, ?_⟩, ?_⟩
  · exact .inr (.inr (.inr (.inr (.inr (.inl (by unfold Present; decide +kernel))))))
  · exact .inr (.inr (.inr (.inr (.inr (.inr (.inr ⟨20, 22, .inr rfl, .inl rfl, by unfold Present; decide +kernel, by unfold Present; decide +kernel,
    by decide +kernel⟩))))))
  · exact ⟨20, 22, .inr rfl, .inl rfl, by unfold Present; decide +kernel, by unfold Present; decide +kernel,
    by decide +kernel⟩
  · rintro ⟨_, h⟩
    rcases h with h | h | h | ⟨i, hi, _, h⟩ | h | h | h | ⟨low, high, hl, hh, _, _, h⟩
    · revert h; decide +kernel
    · revert h; decide +kernel
    · revert h; decide +kernel
    · rcases hi with rfl | rfl | rfl | rfl <;> (revert h; decide +kernel)
    · revert h; unfold Present; decide +kernel
    · revert h; unfold Present; decide +kernel
    · revert h; decide +kernel
    · rcases hl with rfl | rfl <;> rcases hh with rfl | rfl <;> (revert h; decide +kernel)

theorem witness_PointLoadIsRefused_lamp :
    (∀ e ∈ one.points, 1 ≤ e.span) ∧ ¬ BadFields (binaryBlock 1 0 70 0 0x01) ∧
      LampTaken one (binaryBlock 1 0 70 0 0x01) :=
  ⟨by decide +kernel, by unfold BadFields; decide +kernel, alarmed, by decide +kernel,
    by decide +kernel, 70, by decide +kernel⟩

theorem witness_PointLoadIsRefused_full :
    (∀ e ∈ fullPoints.points, 1 ≤ e.span) ∧ NoPlace fullPoints (binaryBlock 4095 255 255 16 0x33) ∧
      ¬ LampTaken fullPoints (binaryBlock 4095 255 255 16 0x33) ∧
      NoOutstation fullOutstations (binaryBlock 4095 255 255 16 0x33) ∧
      ¬ LampTaken fullOutstations (binaryBlock 4095 255 255 16 0x33) ∧
      ¬ NoPlace fullOutstations (binaryBlock 4095 255 255 16 0x33) := by
  refine ⟨?_, ⟨newKey, by decide +kernel⟩, freeLamp,
    ⟨by decide +kernel, by decide +kernel, by decide +kernel⟩, ?_, ?_⟩
  · intro e he
    simp only [fullPoints, List.mem_map] at he
    obtain ⟨n, _, rfl⟩ := he
    simp [alarmed]
  · rintro ⟨e, he, _⟩; cases he
  · rintro ⟨_, h⟩; revert h; decide +kernel

/-- A block on the last lamp, at the last key, is loadable into the section that holds 88/3. -/
theorem witness_PointLoadInsertsANewKey :
    let b := binaryBlock 4095 255 255 16 0x33
    Addressed one head ∧ TablesInOrder one ∧ Loadable one b ∧ one.point (blockKey b) = none := by
  refine ⟨addressed_one, tablesInOrder_one, ⟨by decide +kernel, goodFields, by decide +kernel,
    goodAnalogue, ?_, ?_, ?_⟩, by decide +kernel⟩
  · rintro ⟨e, he, _, c, h1, h2, h3, h4⟩
    have h5 : field8 (binaryBlock 4095 255 255 16 0x33) 4 = 255 := by decide +kernel
    have : e = alarmed := by simpa [one, board, State.settleLamps, State.rebind, State.mapChannels] using he
    subst this
    simp only [alarmed] at h2
    omega
  · rintro ⟨_, h⟩; revert h; decide +kernel
  · rintro ⟨_, _, h⟩; revert h; decide +kernel

/-- 12.4: 88/3 loaded again on channel 71 in group 6, and once more on its own channel 70. -/
theorem witness_PointLoadReplacesAHeldKey :
    ∀ lamp : Byte, lamp = 71 ∨ lamp = 70 →
    let b := binaryBlock 88 3 lamp 6 0x12
    Addressed one head ∧ TablesInOrder one ∧ Loadable one b ∧
      one.point (blockKey b) = some alarmed := by
  have taken : ∀ b, blockKey b = ⟨88, 3⟩ → ¬ LampTaken one b := by
    rintro b hb ⟨e, he, hk, _⟩
    have : e = alarmed := by simpa [one, board, State.settleLamps, State.rebind, State.mapChannels] using he
    subst this
    exact hk hb.symm
  rintro lamp (rfl | rfl)
  all_goals
    refine ⟨addressed_one, tablesInOrder_one, ⟨by decide +kernel, by unfold BadFields; decide +kernel,
      by decide +kernel, ?_, taken _ (by decide +kernel), ?_, ?_⟩, by decide +kernel⟩
    · rintro ⟨h, _⟩; revert h; decide +kernel
    · rintro ⟨h, _⟩; revert h; decide +kernel
    · rintro ⟨h, _⟩; revert h; decide +kernel

theorem witness_PointDropRemovesTheEntry :
    Addressed one head ∧ TablesInOrder one ∧ ([0, 88, 3] : List Byte).length = 3 ∧
      one.point (blockKey [0, 88, 3]) = some alarmed ∧ one.point (blockKey [0, 88, 4]) = none :=
  ⟨addressed_one, tablesInOrder_one, by decide +kernel⟩

theorem witness_PointReadReportsTheEntry :
    Addressed one head ∧ one.point (blockKey [0, 88, 3]) = some alarmed ∧
      (let b := binaryBlock 88 3 70 5 0x12
       b.length = 27 ∧ ¬ BadFields b ∧ LoadedFrom alarmed.fresh b) := by
  refine ⟨addressed_one, by decide +kernel, by decide +kernel, by unfold BadFields; decide +kernel,
    ⟨by decide +kernel, by decide +kernel, by decide +kernel, by decide +kernel, by decide +kernel,
      fun _ => by decide +kernel, fun h => ?_, fun h => ?_, by decide +kernel, by decide +kernel⟩⟩
  · revert h; decide +kernel
  · revert h; decide +kernel

theorem witness_TableScanListsKeysInOrder :
    Addressed one head ∧ TablesInOrder one ∧ ([0, 0, 0] : List Byte).length = 3 ∧
      Addressed State.reset head ∧ TablesInOrder State.reset :=
  ⟨addressed_one, tablesInOrder_one, rfl, addressed_reset, tablesInOrder_reset⟩

theorem witness_GroupSetSetsFirstUp :
    Addressed one head ∧ ([16, 1] : List Byte).length = 2 ∧
      (field8 [0, 1] 0 = 0 ∧ 16 < field8 [17, 1] 0 ∧ 1 < field8 [16, 2] 1) ∧
      (1 ≤ field8 [1, 0] 0 ∧ field8 [16, 1] 0 ≤ 16 ∧ field8 [16, 1] 1 ≤ 1) :=
  ⟨addressed_one, by decide +kernel⟩

theorem witness_OutstationReadReportsTheEntry :
    Addressed one head ∧ (one.outstation (field16 [0, 88] 0)).isSome ∧
      one.outstation (field16 [0, 87] 0) = none :=
  ⟨addressed_one, by decide +kernel⟩

theorem witness_SetStaleLimitForgivesEveryOutstation :
    Addressed two head ∧ KeysRise two := ⟨addressed_two, keysRise_two⟩

/-! ### The hypotheses can be met: alarms, lamps, lines and conditions -/

theorem witness_AckPointAcknowledgesTheGenerationItCarries :
    Addressed two head ∧ KeysRise two ∧ two.point (blockKey [0, 88, 4, 3]) = none ∧
      (two.point (blockKey [0, 88, 3, 3]) = some alarmed ∧ alarmed.alarmState = .unack ∧
        ([0, 88, 3, 3] : List Byte)[3]? = some 3 ∧ ([0, 88, 3, 2] : List Byte)[3]? ≠ some 3) ∧
      ((two.point (blockKey [0, 57, 12, 0])).map (·.alarmState) = some .normal) ∧
      (let s := board [{ alarmed with alarm := none, priority := 0 }]
       Addressed s head ∧ KeysRise s ∧
         (s.point (blockKey [0, 88, 3, 0])).map (·.alarm) = some none) :=
  ⟨addressed_two, keysRise_two, by decide +kernel, by decide +kernel, by decide +kernel,
    addressed rfl (by decide), by unfold KeysRise; decide +kernel, by decide +kernel⟩

theorem witness_AckGroupAndAckAllAcknowledgeTheirScope :
    Addressed two head ∧ KeysRise two ∧ ((0 : Byte).toNat = 0 ∧ 16 < (17 : Byte).toNat) ∧
      (1 ≤ (1 : Byte).toNat ∧ (16 : Byte).toNat ≤ 16) :=
  ⟨addressed_two, keysRise_two, by decide⟩

theorem witness_SilenceAndHornSetActOnTheHorn :
    Addressed one head ∧ ([0, 1, 1] : List Byte).length = 3 ∧
      (1 < field8 [2, 0, 0] 0 ∧ 1 < field8 [0, 2, 0] 1 ∧ 1 < field8 [0, 0, 2] 2) ∧
      (field8 [0, 1, 1] 0 ≤ 1 ∧ field8 [0, 1, 1] 1 ≤ 1 ∧ field8 [0, 1, 1] 2 ≤ 1) :=
  ⟨addressed_one, by decide +kernel⟩

theorem witness_LampOverrideSetsItsRunOfChannels :
    Addressed one head ∧ (field16 [0, 0, 0, 1] 1 = 0 ∧ 256 < field16 [0, 1, 1, 1] 1 ∧
        7 < field8 [0, 0, 1, 8] 3) ∧
      (1 ≤ field16 [1, 1, 0, 7] 1 ∧ field16 [1, 1, 0, 7] 1 ≤ 256 ∧ field8 [1, 1, 0, 7] 3 ≤ 7 ∧
        256 < field8 [1, 1, 0, 7] 0 + field16 [1, 1, 0, 7] 1) ∧
      (overrideCode (some (.flash .stale)) = field8 [0, 1, 0, 7] 3 ∧ 1 ≤ field16 [0, 1, 0, 7] 1 ∧
        field8 [0, 1, 0, 7] 0 + field16 [0, 1, 0, 7] 1 ≤ 256) ∧
      (overrideCode none = field8 [255, 0, 1, 0] 3 ∧
        field8 [255, 0, 1, 0] 0 + field16 [255, 0, 1, 0] 1 ≤ 256) :=
  ⟨addressed_one, by decide +kernel⟩

theorem witness_LampReadReportsABank :
    Addressed one head ∧ 15 < (16 : Byte).toNat ∧ (15 : Byte).toNat ≤ 15 ∧
      (one.lamps.channels[70]).binding = some ⟨88, 3⟩ ∧ (one.lamps.channels[71]).binding = none ∧
      (one.lamps.channels[70]).mismatch ≤ 2 :=
  ⟨addressed_one, by decide +kernel⟩

theorem witness_HoldOnFreezesThePicture :
    Addressed one head ∧ 1 < field8 [2, 0, 0] 0 ∧ field8 [1, 0, 0] 0 = 1 ∧
      one.lamps.sweep = none ∧ one.lamps.holdEnds = none ∧
      (Addressed (sweeping 3 800 0) head ∧ (sweeping 3 800 0).lamps.sweep.isSome) ∧
      (Addressed held head ∧
        held.lamps.holdEnds.isSome ∧
        held.lamps.sweep = none) :=
  ⟨addressed_one, by decide +kernel, by decide +kernel, by decide +kernel, by decide +kernel,
    ⟨addressed rfl (by decide), by decide +kernel⟩,
    ⟨addressed_held, by decide +kernel⟩⟩

theorem witness_HoldEndsByCommandOrExpiry :
    NoGrantDue one ∧ Addressed one head ∧ field8 [0, 0, 0] 0 = 0 ∧ one.lamps.holdEnds = none ∧
      (let s := held
       NoGrantDue s ∧ Addressed s head ∧ s.lamps.holdEnds = some 60000) :=
  ⟨resting, addressed_one, by decide +kernel, by decide +kernel, addressed_held.noGrant,
    addressed_held, by decide +kernel⟩

theorem witness_ProveStartsASweep :
    Addressed one head ∧ 15 < (16 : Byte).toNat ∧ (15 : Byte).toNat ≤ 15 ∧
      one.lamps.sweep = none ∧ one.lamps.holdEnds = none ∧
      (Addressed (sweeping 3 800 0) head ∧ (sweeping 3 800 0).lamps.sweep.isSome) ∧
      (let s := held
       Addressed s head ∧ s.lamps.holdEnds.isSome) :=
  ⟨addressed_one, by decide, by decide, by decide +kernel, by decide +kernel,
    ⟨addressed rfl (by decide), by decide +kernel⟩,
    addressed_held, by decide +kernel⟩

theorem witness_DwellEndJudgesTheStep :
    (NoGrantDue one ∧ one.lamps.sweep = none) ∧
      (∀ step, step = 0 ∨ step = 15 ∨ step = 16 → NoGrantDue (sweeping step 800 0) ∧ ∃ w e,
        (sweeping step 800 0).lamps.sweep = some w ∧ w.run = .running e ∧ w.step = step) ∧
      (let s := (sweeping 3 800 0).withSweep (some ⟨2, 3, .paused, 20, 0, 0⟩)
       NoGrantDue s ∧ ∃ w, s.lamps.sweep = some w ∧ w.run = .paused) :=
  ⟨⟨resting, by decide +kernel⟩, fun _ _ => ⟨resting, _, _, rfl, rfl, rfl⟩, resting, _, rfl, rfl⟩

theorem witness_ClearLampFaultsClearsItsBanks :
    Addressed (lamp37 1 (some .opened)) head ∧
      (15 < (16 : Byte).toNat ∧ (254 : Byte).toNat < 255) ∧
      (15 : Byte).toNat ≤ 15 ∧ (255 : Byte).toNat = 255 :=
  ⟨addressed rfl (by decide), by decide⟩

theorem witness_LineSetStoresTheLine :
    Addressed one head ∧ ([7, 1, 1, 2, 16, 4, 25] : List Byte).length = 7 ∧
      (7 < field8 [8] 0 ∧ 1 < field8 [0, 2] 1 ∧ 1 < field8 [0, 0, 2] 2 ∧
        5 < field8 [0, 0, 0, 6] 3 ∧ 4 < field8 [0, 0, 0, 0, 0, 5] 5 ∧
        (field8 [0, 0, 0, 2, 17] 3 = 2 ∧
          ¬ (1 ≤ field8 [0, 0, 0, 2, 17] 4 ∧ field8 [0, 0, 0, 2, 17] 4 ≤ 16))) ∧
      (field8 [7, 1, 1, 2, 16, 4, 25] 0 = (7 : Fin 8).val ∧
        directionOfCode (field8 [7, 1, 1, 2, 16, 4, 25] 1) = some .output ∧
        polarityOfCode (field8 [7, 1, 1, 2, 16, 4, 25] 2) = some .activeHigh ∧
        inputFunctionOfCode (field8 [7, 1, 1, 2, 16, 4, 25] 3) = some .ackGroup ∧
        outputSourceOfCode (field8 [7, 1, 1, 2, 16, 4, 25] 5) = some .attention ∧
        (1 ≤ field8 [7, 1, 1, 2, 16, 4, 25] 4 ∧ field8 [7, 1, 1, 2, 16, 4, 25] 4 ≤ 16)) :=
  ⟨addressed_one, by decide +kernel⟩

theorem witness_LineWriteAndLineReadTheLines : Addressed one head := addressed_one

theorem witness_ConditionCommandsActOnLatchesAndMask : Addressed one head := addressed_one

/-! ### The hypotheses can be met: time-driven events and frames -/

theorem witness_MarkerIsJudgedBySupervision :
    AssignedAs one 1 ∧ NoGrantDue one ∧ ([0, 1] : List Byte).length ≠ 3 ∧ ([0, 1, 1] : List Byte).length = 3 ∧
      State.reset.supervisor.state ≠ .inStep ∧
      (one.supervisor.state = .inStep ∧ one.supervisor.reference = some 0) ∧
      (atMs 899 one).now + one.supervisor.window < 0 + one.supervisor.period ∧
      0 + one.supervisor.period ≤ (atMs 900 one).now + one.supervisor.window ∧
      (atMs 1100 one).now ≤ 0 + one.supervisor.period + one.supervisor.window ∧
      0 + one.supervisor.period + one.supervisor.window < (atMs 1101 one).now :=
  ⟨assigned rfl, resting, by decide +kernel⟩

theorem witness_MarkerAdvancesTravelAndReturnsQuality :
    let s := { two with supervisor := { two.supervisor with skews := 4 } }
    let u := { two with supervisor := { two.supervisor with state := .lost } }
    (AssignedAs s 1 ∧ NoGrantDue s ∧ KeysRise s ∧ (true = true ↔ s.supervisor.state = .inStep ∧
        s.supervisor.skews + 1 = s.supervisor.skewLimit ∧
        ∃ ref, s.supervisor.reference = some ref ∧
          s.now + s.supervisor.window < ref + s.supervisor.period) ∧
      s.supervisor.state ≠ .lost ∧ s.stuckNow.length = 1) ∧
    (AssignedAs u 1 ∧ NoGrantDue u ∧ KeysRise u ∧ (false = true ↔ u.supervisor.state = .inStep ∧
        u.supervisor.skews + 1 = u.supervisor.skewLimit ∧
        ∃ ref, u.supervisor.reference = some ref ∧
          u.now + u.supervisor.window < ref + u.supervisor.period) ∧
      u.supervisor.state = .lost) := by
  refine ⟨⟨assigned rfl, resting, keysRise_two, ⟨fun _ => ⟨rfl, rfl, 0, rfl, by decide +kernel⟩, fun _ => rfl⟩,
    by decide, by decide +kernel⟩, ⟨assigned rfl, resting, keysRise_two,
    ⟨fun h => absurd h (by decide), fun h => absurd h.1 (by decide)⟩, rfl⟩⟩

theorem witness_LateBoundExpiryCountsAMiss :
    (NoGrantDue State.reset ∧ NoGrantDue one) ∧ State.reset.supervisor.state = .noSync ∧
      (one.supervisor.state ≠ .noSync ∧ one.supervisor.reference = some 0 ∧
        one.supervisor.misses + 1 < one.supervisor.missLimit) ∧
      (let v := { one.supervisor with misses := 2 }
       v.missLimit ≠ 0 ∧ v.missLimit ≤ v.misses + 1) ∧
      ({ one.supervisor with state := .lost } : Supervisor).state ≠ .noSync ∧
      ({ one.supervisor with missLimit := 0 } : Supervisor).missLimit = 0 :=
  ⟨⟨resting, resting⟩, by decide +kernel⟩

theorem witness_PointsFrameTakesItsItemsInOrder :
    AssignedAs two 1 ∧ NoGrantDue two ∧ KeysRise two ∧ LampsSettled two ∧
      (∀ body ∈ [([] : List Byte), [0], [9], [1, 0], .replicate 56 8],
        ¬ (1 ≤ field8 body 0 ∧ field8 body 0 ≤ 8 ∧ body.length = 1 + 6 * field8 body 0)) ∧
      (∀ c : Nat, c = 1 ∨ c = 8 → let body := byteOf c :: .replicate (6 * c) 0
        1 ≤ field8 body 0 ∧ field8 body 0 ≤ 8 ∧ body.length = 1 + 6 * field8 body 0) :=
  ⟨assigned rfl, resting, keysRise_two, settleLamps_settled _, by decide +kernel, by
    rintro c (rfl | rfl) <;> decide +kernel⟩

/-- Items that are unmapped, that mark a point invalid, that find it withheld and that find it trusted. -/
theorem witness_itemTaken :
    two.outstation 5 = none ∧ (two.outstation 57).map (·.stale) = some false ∧
      (two.point ⟨57, 13⟩ = none ∧ (two.point ⟨57, 12⟩).isSome) ∧
      two.quality ((valve .travel 3 .fresh).store 1) = .good ∧
      (let s := { two with outstations := [⟨57, 1, .down, 5, true⟩] }
       (s.outstation 57).map (·.stale) = some true ∧
         s.quality ((valve .travel 3 .fresh).store 1) = .offline) := by
  decide +kernel

theorem witness_OutstationReportMovesItsPoints :
    AssignedAs two 1 ∧ NoGrantDue two ∧ KeysRise two ∧
      (([0, 57] : List Byte).length ≠ 3 ∧ field16 [0xF0, 0, 1] 0 % 4096 = 0 ∧
        two.outstation (field16 [0, 5, 1] 0 % 4096) = none ∧ field8 [0, 57, 3] 2 ≠ 1 ∧
        field8 [0, 57, 3] 2 ≠ 2) ∧
      (([0xF0, 57, 1] : List Byte).length = 3 ∧ field16 [0xF0, 57, 1] 0 % 4096 = 57 ∧
        (two.outstation 57).isSome ∧ field8 [0xF0, 57, 1] 2 = 1 ∧ field8 [0, 57, 2] 2 = 2) :=
  ⟨assigned rfl, resting, keysRise_two, by decide +kernel⟩

theorem witness_SenseInstantsJudgeTheLamps :
    (NoGrantDue one ∧ NoGrantDue passOnly) ∧ one.port.station.isSome ∧
      passOnly.port.station = none ∧ (one.generators.get .alert).phase = some (.on, 250) ∧
      (let g : Generator := ⟨⟨10, 10⟩, some ⟨12, 13⟩, .stopping, some (.off, 700)⟩
       g.phase = some (.off, 700) ∧ g.run = .stopping) ∧
      (let g : Generator := ⟨⟨10, 10⟩, none, .running, some (.off, 700)⟩
       g.phase = some (.off, 700) ∧ g.run = .running) ∧
      (⟨⟨10, 10⟩, none, .stopped, none⟩ : Generator).phase = none :=
  ⟨⟨resting, resting⟩, by decide +kernel⟩

/-- A line with a function whose pin changed to LOW at moment 30, and the level held before. -/
def changed (f : InputFunction) (g : Nat) (level : Option PinLevel) : State :=
  one.modifyLine 1 fun l =>
    { l with function := f, group := g, level := level, pin := .low, timer := some 30 }

theorem witness_PinsAreDebouncedAndPressesPerformed :
    (KeysRise one ∧ ∀ f l, NoGrantDue (changed f 5 l)) ∧ ((State.reset.modifyLine 1 (keyLine .silence 0)).line 1).timer = none ∧
      (∀ f ∈ [InputFunction.none, .ackSection, .ackGroup, .silence, .lampTest, .report],
        let l := (changed f 5 (some .high)).line 1
        l.timer = some 30 ∧ l.level ≠ some l.pin ∧ l.polarity.active l.pin = true ∧
          l.function = f ∧ (changed f 5 (some .high)).port.station.isSome) ∧
      (let l := (changed .report 0 (some .low)).line 1
       l.timer = some 30 ∧ l.level = some l.pin) ∧
      ((changed .report 0 none).line 1).level = none ∧
      (let l := ((changed .report 0 (some .high)).modifyLine 1
         fun l => { l with polarity := .activeHigh }).line 1
       l.polarity.active l.pin = false ∧ l.level ≠ some l.pin) := by
  refine ⟨⟨keysRise_one, fun _ _ => resting⟩, ?_⟩
  decide +kernel

theorem witness_QualityIsTheFirstCaseThatApplies :
    (one.outstation alarmed.key.outstation = some ⟨88, 1, .up, 0, false⟩ ∧ alarmed.raw ≠ none ∧
        one.supervisor.state ≠ .lost ∧ alarmed.itemInvalid = false ∧
        alarmed.sensorFault = false) ∧
      ({ alarmed with raw := none } : PointEntry).raw = none ∧
      (⟨88, 1, .down, 0, true⟩ : OutstationEntry).comms = .down ∧
      (⟨88, 1, .unknown, 5, true⟩ : OutstationEntry).stale = true ∧
      ({ alarmed with itemInvalid := true } : PointEntry).itemInvalid = true ∧
      (∃ m p, (column (some 4000) none .normal .fresh).cls = .analogue m p) :=
  ⟨by decide +kernel, by decide, by decide, by decide, by decide, _, _, rfl⟩

theorem witness_ItemsDecodeByTheirClass :
    (∃ inv normal, alarmed.cls = .binary inv normal) ∧
      (∃ limit da, (valve .travel 3 .fresh).cls = .double limit da) ∧
      (valve .travel 3 .fresh).decoded = some (.position .travel) ∧
      (∃ one, alarmed.decoded = some (.state one)) ∧
      ∃ mode q, (column none none .normal .fresh).cls = .analogue mode q ∧ q.rawLo < q.rawHi ∧
        5119 < q.rawLo - q.underMargin ∧ q.rawLo - q.underMargin ≤ 5120 ∧
        33600 ≤ q.rawHi + q.overMargin ∧ q.rawHi + q.overMargin < 33601 ∧
        AtLeast q.h 0 850 ∧ ¬ AtLeast q.h 0 849 ∧ AtLeast q.h q.deadband 830 ∧
        AtMost q.l 0 150 ∧ AtMost q.l q.deadband 170 ∧ ¬ AtMost q.l q.deadband 171 := by
  refine ⟨⟨_, _, rfl⟩, ⟨_, _, rfl⟩, rfl, ⟨_, rfl⟩, _, _, rfl, ?_⟩
  simp [AtLeast, AtMost]

theorem witness_LampsComposeTheirPoint :
    (9 < (column none none .normal .fresh).span ∧ 1 < (valve .travel 3 .fresh).span) ∧
      (one.quality alarmed ≠ .never ∧ alarmed.alarmState = .unack) ∧
      (true = true ↔ ∃ (g : Nat) (h : g < 16), alarmed.group = g + 1 ∧
        one.groups[g].holder = some alarmed.key) ∧
      one.quality (valve .travel 3 .fresh) = .good ∧
      (valve .travel 3 (alarmIn .rtnUnack (some .travelStuck) 1)).alarmState = .rtnUnack := by
  refine ⟨by decide, by decide +kernel, ⟨fun _ => ⟨4, by decide, by decide +kernel⟩, fun _ => rfl⟩,
    by decide +kernel, rfl⟩

theorem witness_LampsAreDrivenByTheFirstSource :
    passOnly.port.station = none ∧ (one.port.station.isSome ∧ one.panel.lampTest = false) ∧
      (run (.debounceExpiry 1) (changed .lampTest 0 none)).panel.lampTest = true ∧
      held.lamps.holdEnds.isSome ∧
      (sweeping 3 800 0).lamps.sweep = some ⟨2, 3, .running 800, 20, 0, 0⟩ ∧ 37 / 16 = 2 ∧
      one.point ⟨88, 3⟩ = some alarmed ∧
      (one.lamps.channels[70]).driven = .flash .first ∧
      (one.generators.get .first).phase = some (.on, 120) := by
  decide +kernel

/-! ### The invariants can be met away from reset, and a step goes on from there -/

/-- The section that holds 88/3 in alarm, with an ACK ALL waiting. -/
def asked : State := one.withPending [.ackAll head []]

theorem test_step_takes_the_waiting_command :
    (match step asked with
      | .next t => t.pending.isEmpty && (t.point ⟨88, 3⟩).any fun e => e.alarmState == .acked
      | _ => false) = true := by decide +kernel

theorem witness_EveryStepKeepsTheQueuesWithinTheirRanges :
    QueuesFit asked ∧ ∃ t, step asked = .next t := by
  refine ⟨?_, _, rfl⟩
  constructor
  case station =>
    intro n h
    cases h
    decide
  all_goals decide +kernel

theorem tablesInOrder_asked : TablesInOrder asked :=
  let h := tablesInOrder_one
  ⟨h.points, h.few, h.keys, h.outstations, h.fewOutstations, h.counted, h.spans, h.apart, h.bound⟩

theorem witness_EveryStepKeepsTheTablesInOrder :
    TablesInOrder asked ∧ ∃ t, step asked = .next t :=
  ⟨tablesInOrder_asked, _, rfl⟩

theorem alarmsAgree_asked : AlarmsAgree asked where
  presence := by decide +kernel
  cause := by
    intro e he a ha
    have : e = alarmed := List.mem_singleton.mp he
    subst this
    cases ha
    simp
  unack := by decide +kernel
  ringback := by decide +kernel
  hornCount := by decide +kernel
  horn := by decide +kernel
  holder := by
    have h : ∀ g : Fin 16, asked.groups[g.val].holder =
        (if g.val = 4 then some ⟨88, 3⟩ else none) ∧ (g.val = 4 → asked.groups[g.val].firstUp = true) := by
      decide +kernel
    intro g hg k hk
    have := h ⟨g, hg⟩
    simp only [this.1] at hk
    split at hk
    · rename_i h4
      cases hk
      refine ⟨this.2 h4, alarmed, List.mem_singleton.mpr rfl, rfl, ?_, by decide⟩
      simp only [alarmed]
      omega
    · cases hk

theorem witness_EveryStepKeepsTheAlarmsInAgreement :
    TablesInOrder asked ∧ AlarmsAgree asked ∧ ∃ t, step asked = .next t :=
  ⟨tablesInOrder_asked, alarmsAgree_asked, _, rfl⟩

theorem timeLawful_asked : TimeLawful asked where
  reference := by decide +kernel
  period := by decide +kernel
  window := by decide +kernel
  misses := by decide +kernel
  skews := by decide +kernel
  cycle := by decide +kernel
  staleLimit := by decide +kernel
  silence := by decide +kernel
  generators := by
    intro c
    cases c <;>
    · refine ⟨by decide +kernel, ?_, by decide +kernel, by decide +kernel⟩
      intro t h
      cases h

/-- A PASS-ONLY controller, with a cycle marker waiting. -/
def passing : State := passOnly.withPending [.cycleMarker 0 63 [0, 1, 1]]

theorem witness_EveryStepKeepsLoopTimeLawful :
    (TimeLawful asked ∧ ∃ t, step asked = .next t) ∧
      (PassOnlyIsQuiet passing ∧ passing.port.station = none ∧ ∃ t, step passing = .next t) := by
  refine ⟨⟨timeLawful_asked, _, rfl⟩, fun _ => ?_, by decide +kernel, _, rfl⟩
  decide +kernel

theorem panelAgrees_asked : PanelAgrees asked where
  mismatch := by decide +kernel
  held := by decide +kernel
  debounce := by decide +kernel
  group := by decide +kernel
  output := by decide +kernel
  settling := by decide +kernel
  lampTest := by decide +kernel
  sweep := by intro w h; cases h

theorem lampsSettled_board (points : List PointEntry) (horn : Horn) (holder : Option Key) :
    LampsSettled (board points horn holder) := settleLamps_settled _

theorem lampsSettled_withPending {s : State} (h : LampsSettled s) (queue : List Instr) :
    LampsSettled (s.withPending queue) := h.congr rfl rfl rfl rfl rfl rfl rfl rfl rfl

theorem witness_EveryStepKeepsTheLampsAndLinesInAgreement :
    (LampsSettled asked ∧ ∃ t, step asked = .next t) ∧
      (PanelAgrees asked ∧ ∃ t, step asked = .next t) :=
  ⟨⟨lampsSettled_withPending (lampsSettled_board _ _ _) _, _, rfl⟩, panelAgrees_asked, _, rfl⟩

theorem witness_RestartKeepsTheConfigurationAlone : Addressed one head := addressed_one

theorem witness_TableClearEmptiesTheTables : Addressed one head ∧ one.points.length = 1 :=
  ⟨addressed_one, by decide +kernel⟩

end Sys2Proof.Tests
end

section
/-! What leaves the tables and the alarm side undisturbed, and what a step can do to them, said once: an
invariant that the few operations of `KeptByChanges` keep is kept by every step. -/

namespace Sys2Proof.Machine

/-! ### Tables and alarm side left undisturbed -/

/-- An entry without the fields that telemetry and markers write: its configuration and its alarm record. -/
def PointEntry.standing (e : PointEntry) : PointEntry :=
  { e with raw := none, decoded := none, band := .normal, itemInvalid := false, sensorFault := false, travel := 0 }

/-- What an outstation entry says of the points that name it (R20). -/
def OutstationEntry.census (o : OutstationEntry) : Nat × Nat := (o.number, o.points)

/-- The configuration and the alarm records of the points, the outstations' point counts, the counts, the
horn, the groups and the bindings stay as they are. -/
structure Undisturbed (s t : State) : Prop where
  points : t.points.map PointEntry.standing = s.points.map PointEntry.standing
  outstations : t.outstations.map OutstationEntry.census = s.outstations.map OutstationEntry.census
  alarms : t.alarms = s.alarms
  groups : t.groups = s.groups
  bindings : ∀ (c : Nat) (h : c < 256), t.lamps.channels[c].binding = s.lamps.channels[c].binding

namespace Undisturbed

theorem refl (s : State) : Undisturbed s s := ⟨rfl, rfl, rfl, rfl, fun _ _ => rfl⟩

theorem trans {s t u : State} (h : Undisturbed s t) (h' : Undisturbed t u) : Undisturbed s u where
  points := h'.points.trans h.points
  outstations := h'.outstations.trans h.outstations
  alarms := h'.alarms.trans h.alarms
  groups := h'.groups.trans h.groups
  bindings c hc := (h'.bindings c hc).trans (h.bindings c hc)

theorem of_eq {s t : State} (hp : t.points = s.points) (ho : t.outstations = s.outstations)
    (ha : t.alarms = s.alarms) (hg : t.groups = s.groups)
    (hl : t.lamps.channels = s.lamps.channels) : Undisturbed s t :=
  ⟨by rw [hp], by rw [ho], ha, hg, fun c _ => by simp only [hl]⟩

theorem foldl {α : Type} {f : State → α → State} (h : ∀ s a, Undisturbed s (f s a)) (l : List α)
    (s : State) : Undisturbed s (l.foldl f s) :=
  foldl_related Undisturbed refl (fun _ _ _ => trans) f h l s

theorem ite {p : Prop} [Decidable p] {s t u : State} (ht : Undisturbed s t) (hu : Undisturbed s u) :
    Undisturbed s (if p then t else u) := by
  split
  · exact ht
  · exact hu

end Undisturbed

/-! ### Operations that leave them undisturbed -/

theorem advanceTo_undisturbed (s : State) (us : Nat) : Undisturbed s (s.advanceTo us) :=
  .of_eq rfl rfl rfl rfl rfl

theorem record_undisturbed (s : State) (d : RecordData) : Undisturbed s (s.record d) :=
  .of_eq rfl rfl rfl rfl rfl

theorem occur_undisturbed (s : State) (c : Condition) : Undisturbed s (s.occur c) :=
  .of_eq rfl rfl rfl rfl rfl

theorem granted_undisturbed (s : State) : Undisturbed s s.granted :=
  .of_eq (State.granted_points s) (State.granted_outstations s) (State.granted_alarms s)
    (State.granted_groups s) (congrArg LampUnit.channels (State.granted_lamps s))

theorem mapChannels_undisturbed (s : State) {f : Nat → Channel → Channel}
    (hf : ∀ c ch, (f c ch).binding = ch.binding) : Undisturbed s (s.mapChannels f) :=
  ⟨rfl, rfl, rfl, rfl, fun c h => by rw [mapChannels_channel, hf]⟩

theorem settleLamps_undisturbed (s : State) : Undisturbed s s.settleLamps :=
  mapChannels_undisturbed s fun _ _ => rfl

/-- Points changed in nothing but the fields of telemetry, under a key. -/
theorem modifyPoint_undisturbed (s : State) (k : Key) {f : PointEntry → PointEntry}
    (hf : ∀ e, (f e).standing = e.standing) :
    Undisturbed s { s with points := modifyPoint k f s.points } := by
  refine ⟨?_, rfl, rfl, rfl, fun _ _ => rfl⟩
  simp only [modifyPoint, List.map_map]
  refine List.map_congr_left fun e _ => ?_
  by_cases h : e.key = k <;> simp [h, hf]

/-- Outstations changed in nothing but what reports and silence write. -/
theorem outstations_undisturbed (s : State) {f : OutstationEntry → OutstationEntry}
    (hf : ∀ o, (f o).census = o.census) :
    Undisturbed s { s with outstations := s.outstations.map f } := by
  refine ⟨rfl, ?_, rfl, rfl, fun _ _ => rfl⟩
  simp only [List.map_map]
  exact List.map_congr_left fun o _ => hf o

theorem modifyOutstation_undisturbed (s : State) (n : Nat) {f : OutstationEntry → OutstationEntry}
    (hf : ∀ o, (f o).census = o.census) :
    Undisturbed s { s with outstations := modifyOutstation n f s.outstations } :=
  outstations_undisturbed s fun o => by by_cases h : o.number = n <;> simp [h, hf]

theorem PointEntry.store_standing (e : PointEntry) (raw : Nat) :
    (e.store raw).standing = e.standing := by
  unfold PointEntry.store
  cases hc : e.cls with
  | binary inverted normal => rw [PointEntry.standing, PointEntry.standing, hc]
  | double limit disagree => rw [PointEntry.standing, PointEntry.standing, hc]
  | analogue mode p =>
    simp only
    split <;> rw [PointEntry.standing, PointEntry.standing, hc]

theorem OutstationEntry.hush_census (o : OutstationEntry) (limit : Nat) :
    (o.hush limit).census = o.census := by
  unfold OutstationEntry.hush
  split <;> rfl

theorem Channel.judge_binding (ch : Channel) (expected current : Bool) :
    (ch.judge expected current).channel.binding = ch.binding := by
  unfold Channel.judge
  dsimp only
  repeat' split
  all_goals rfl

theorem Sweep.judgeLamp_binding (w : Sweep) (k : Nat) (current : Bool) (ch : Channel) :
    (w.judgeLamp k current ch).channel.binding = ch.binding := by
  unfold Sweep.judgeLamp
  dsimp only
  repeat' split
  all_goals rfl

theorem sense_undisturbed (s : State) (expects : Nat → Channel → Option Bool)
    (currents : BitVec 256) : Undisturbed s (s.sense expects currents) := by
  refine (mapChannels_undisturbed s fun c ch => ?_).trans
    (.foldl (fun u f => (record_undisturbed u _).trans (occur_undisturbed _ _)) _ _)
  dsimp only
  split
  · exact Channel.judge_binding ch _ _
  · rfl

theorem senseTimer_undisturbed (s : State) (currents : BitVec 256) :
    Undisturbed s (s.senseTimer currents) := by
  have h : Undisturbed s { s with lamps := { s.lamps with
      senseDue := s.lamps.senseDue + Config.senseInterval } } := .of_eq rfl rfl rfl rfl rfl
  exact .ite (h.trans (sense_undisturbed _ _ _)) h

theorem endPhase_undisturbed (s : State) (c : Cadence) (ended : Phase) (currents : BitVec 256) :
    Undisturbed s (s.endPhase c ended currents) := by
  have h : Undisturbed s (if s.assigned then s.sense (s.phaseExpects c ended) currents else s) :=
    .ite (sense_undisturbed s _ _) (.refl s)
  exact h.trans (.of_eq rfl rfl rfl rfl rfl)

theorem judgeStep_undisturbed (s : State) (w : Sweep) (samples : BitVec 16) :
    Undisturbed s (s.judgeStep w samples) := by
  refine (mapChannels_undisturbed s fun c ch => ?_).trans
    (.foldl (fun u f => record_undisturbed u _) _ _)
  dsimp only
  split
  · exact Sweep.judgeLamp_binding ..
  · rfl

theorem withSweep_undisturbed (s : State) (w : Option Sweep) : Undisturbed s (s.withSweep w) :=
  .of_eq rfl rfl rfl rfl rfl

theorem completeSweep_undisturbed (s : State) (w : Sweep) : Undisturbed s (s.completeSweep w) := by
  unfold State.completeSweep
  exact .ite (.of_eq rfl rfl rfl rfl rfl) (.of_eq rfl rfl rfl rfl rfl)

theorem endDwell_undisturbed (s : State) (w : Sweep) (currents : BitVec 256) :
    Undisturbed s (s.endDwell w currents) := by
  have h := judgeStep_undisturbed s w (bankSamples w.bank currents)
  exact .ite ((h.trans (withSweep_undisturbed _ _)).trans (settleLamps_undisturbed _))
    ((h.trans (completeSweep_undisturbed _ _)).trans (settleLamps_undisturbed _))

theorem modifyLine_undisturbed (s : State) (i : Fin 8) (f : Line → Line) :
    Undisturbed s (s.modifyLine i f) := .of_eq rfl rfl rfl rfl rfl

theorem followLampTest_undisturbed (s : State) : Undisturbed s s.followLampTest := by
  have h : Undisturbed s ({ s with panel := { s.panel with lampTest := s.lampTestHeld } } : State) :=
    .of_eq rfl rfl rfl rfl rfl
  exact (h.trans (withSweep_undisturbed _ _)).trans (settleLamps_undisturbed _)

theorem endHoldWith_undisturbed (s : State) (cause : HoldEnd) :
    Undisturbed s (s.endHoldWith cause) := by
  have h : Undisturbed s s.endHold := ⟨rfl, rfl, rfl, rfl, fun c hc => by simp [State.endHold]⟩
  exact (h.trans (record_undisturbed _ _)).trans (settleLamps_undisturbed _)

theorem holdOn_undisturbed (s : State) (limit : Nat) : Undisturbed s (s.holdOn limit).state := by
  have h : Undisturbed s (s.beginHold (clamp 10 600 limit)) :=
    ⟨rfl, rfl, rfl, rfl, fun c hc => by simp [State.beginHold]⟩
  unfold State.holdOn
  repeat' split
  · exact .refl s
  · exact .of_eq rfl rfl rfl rfl rfl
  · exact h.trans (settleLamps_undisturbed _)

theorem holdOff_undisturbed (s : State) : Undisturbed s s.holdOff.state := by
  unfold State.holdOff
  split
  · exact endHoldWith_undisturbed s .command
  · exact .refl s

theorem realign_undisturbed (s : State) : Undisturbed s s.realign := .of_eq rfl rfl rfl rfl rfl

theorem setOverrides_undisturbed (s : State) (first count : Nat) (l : Option Level) :
    Undisturbed s (s.setOverrides first count l) :=
  (mapChannels_undisturbed s fun c ch => by split <;> rfl).trans (settleLamps_undisturbed _)

theorem clearFaults_undisturbed (s : State) (bank : Nat) : Undisturbed s (s.clearFaults bank) :=
  mapChannels_undisturbed s fun c ch => by split <;> rfl

theorem beginSweep_undisturbed (s : State) (tag : Byte) (bank : Nat) :
    Undisturbed s (s.beginSweep tag bank) := .of_eq rfl rfl rfl rfl rfl

theorem raiseConditions_undisturbed (s : State) (set : Byte) :
    Undisturbed s (s.raiseConditions set) :=
  .foldl (fun u _ => .ite (occur_undisturbed u _) (.refl u)) _ s

theorem relatch_undisturbed (s : State) (set : Byte) : Undisturbed s (s.relatch set) :=
  .foldl (fun u _ => .ite (occur_undisturbed u _) (.refl u)) _ s

theorem clearConditions_undisturbed (s : State) (set : Byte) :
    Undisturbed s (s.clearConditions set) := by
  have h : Undisturbed s { s with reports := s.reports.clear set } := .of_eq rfl rfl rfl rfl rfl
  exact h.trans (relatch_undisturbed _ set)

theorem countSilence_undisturbed (s : State) : Undisturbed s s.countSilence :=
  (outstations_undisturbed s fun o => o.hush_census s.staleLimit).trans
    (.foldl (fun u _ => occur_undisturbed u _) _ _)

/-! ### The Loop Port and the Command Unit leave them undisturbed -/

theorem countFrameError_undisturbed (s : State) : Undisturbed s s.countFrameError := by
  unfold State.countFrameError
  repeat' split
  all_goals exact .of_eq rfl rfl rfl rfl rfl

theorem frameError_undisturbed (s : State) : Undisturbed s s.frameError :=
  Undisturbed.trans (t := s.hunt) (.of_eq rfl rfl rfl rfl rfl) (countFrameError_undisturbed s.hunt)

theorem forward_undisturbed (s : State) (f : Frame) : Undisturbed s (s.forward f) := by
  unfold State.forward
  repeat' split
  all_goals exact .of_eq rfl rfl rfl rfl rfl

theorem received_undisturbed (s : State) : Undisturbed s s.received := .of_eq rfl rfl rfl rfl rfl

theorem withReceiver_undisturbed (s : State) (r : Receiver) : Undisturbed s (s.withReceiver r) :=
  .of_eq rfl rfl rfl rfl rfl

theorem placeReply_undisturbed (s : State) (f : Frame) : Undisturbed s (s.placeReply f) :=
  .of_eq rfl rfl rfl rfl rfl

theorem dropCommand_undisturbed (s : State) : Undisturbed s s.dropCommand :=
  .of_eq rfl rfl rfl rfl rfl

theorem takeTruncated_undisturbed (s : State) : Undisturbed s s.takeTruncated := by
  unfold State.takeTruncated
  split
  · exact (advanceTo_undisturbed s _).trans (frameError_undisturbed _)
  · exact .refl s

theorem startBit_undisturbed (s : State) : Undisturbed s s.startBit := by
  unfold State.startBit
  split
  · exact .ite (takeTruncated_undisturbed s) (withReceiver_undisturbed s _)
  · exact withReceiver_undisturbed s _

theorem settle_undisturbed (a : Answer) (station tag code : Byte) :
    Undisturbed a.state (a.settle station tag code) := by
  unfold Answer.settle
  split
  · exact placeReply_undisturbed ..
  · exact .refl _

/-! ### Timers that leave them undisturbed -/

theorem takeStarted_undisturbed (s : State) : Undisturbed s s.takeStarted := by
  unfold State.takeStarted
  split
  · exact .of_eq rfl rfl rfl rfl rfl
  · exact .refl s

theorem takeTransmissionEnd_undisturbed (s : State) : Undisturbed s s.takeTransmissionEnd := by
  unfold State.takeTransmissionEnd
  split
  · exact .of_eq rfl rfl rfl rfl rfl
  · exact .refl s

theorem lateBoundExpires_undisturbed (s : State) (reference : Nat) :
    Undisturbed s (s.lateBoundExpires reference) := by
  have h (v : Supervisor) : Undisturbed s { s with supervisor := v } := .of_eq rfl rfl rfl rfl rfl
  unfold State.lateBoundExpires
  split
  · exact .ite (((h _).trans (occur_undisturbed _ _)).trans (settleLamps_undisturbed _)) (h _)
  · exact h _

theorem takeLateBound_undisturbed (s : State) : Undisturbed s s.takeLateBound := by
  unfold State.takeLateBound
  split
  · exact .refl s
  · exact .refl s
  · exact (advanceTo_undisturbed s _).trans (lateBoundExpires_undisturbed _ _)

theorem takeHoldExpiry_undisturbed (s : State) : Undisturbed s s.takeHoldExpiry := by
  unfold State.takeHoldExpiry
  split
  · exact (advanceTo_undisturbed s _).trans (endHoldWith_undisturbed _ _)
  · exact .refl s

theorem takeDwellEnd_undisturbed (s : State) (currents : BitVec 256) :
    Undisturbed s (s.takeDwellEnd currents) := by
  unfold State.takeDwellEnd
  repeat' split
  · exact (advanceTo_undisturbed s _).trans (endDwell_undisturbed _ _ _)
  · exact .refl s
  · exact .refl s

theorem takeSenseTimer_undisturbed (s : State) (currents : BitVec 256) :
    Undisturbed s (s.takeSenseTimer currents) :=
  (advanceTo_undisturbed s _).trans (senseTimer_undisturbed _ _)

theorem takePhaseEnd_undisturbed (s : State) (c : Cadence) (currents : BitVec 256) :
    Undisturbed s (s.takePhaseEnd c currents) := by
  unfold State.takePhaseEnd
  split
  · exact (advanceTo_undisturbed s _).trans (endPhase_undisturbed _ _ _ _)
  · exact .refl s

theorem withPending_undisturbed (s : State) (queue : List Instr) :
    Undisturbed s (s.withPending queue) := .of_eq rfl rfl rfl rfl rfl

/-! ### Commands that leave them undisturbed -/

theorem takeSetStation_undisturbed (b : List Byte) (s : State) :
    Undisturbed s (takeSetStation b s).state := by
  unfold takeSetStation
  dsimp only
  split
  · exact .of_eq rfl rfl rfl rfl rfl
  · exact .refl s

theorem takeSetTiming_undisturbed (b : List Byte) (s : State) :
    Undisturbed s (takeSetTiming b s).state := by
  unfold takeSetTiming
  split
  · exact .of_eq rfl rfl rfl rfl rfl
  · exact .refl s

theorem takeSetCadence_undisturbed (b : List Byte) (s : State) :
    Undisturbed s (takeSetCadence b s).state := by
  unfold takeSetCadence
  split
  · exact .of_eq rfl rfl rfl rfl rfl
  · exact .refl s

theorem takePointRead_undisturbed (b : List Byte) (s : State) :
    Undisturbed s (takePointRead b s).state := by
  unfold takePointRead
  split <;> exact .refl s

theorem takeOutstationRead_undisturbed (b : List Byte) (s : State) :
    Undisturbed s (takeOutstationRead b s).state := by
  unfold takeOutstationRead
  split <;> exact .refl s

theorem takeLampOverride_undisturbed (b : List Byte) (s : State) :
    Undisturbed s (takeLampOverride b s).state := by
  unfold takeLampOverride
  dsimp only
  repeat' split
  · exact .refl s
  · exact .refl s
  · exact .refl s
  · exact setOverrides_undisturbed s _ _ _

theorem takeLampRead_undisturbed (b : List Byte) (s : State) :
    Undisturbed s (takeLampRead b s).state := by
  unfold takeLampRead
  split <;> exact .refl s

theorem takeHold_undisturbed (b : List Byte) (s : State) :
    Undisturbed s (takeHold b s).state := by
  unfold takeHold
  split
  · exact holdOff_undisturbed s
  · exact holdOn_undisturbed s _
  · exact .refl s

theorem takeProve_undisturbed (tag : Byte) (b : List Byte) (s : State) :
    Undisturbed s (takeProve tag b s).state := by
  unfold takeProve
  dsimp only
  repeat' split
  · exact .refl s
  · exact .refl s
  · exact (beginSweep_undisturbed s _ _).trans (settleLamps_undisturbed _)

theorem takeClearLampFaults_undisturbed (b : List Byte) (s : State) :
    Undisturbed s (takeClearLampFaults b s).state := by
  unfold takeClearLampFaults
  dsimp only
  split
  · exact clearFaults_undisturbed s _
  · exact .refl s

theorem writeLatches_undisturbed (s : State) (mask values : Byte) :
    Undisturbed s (s.writeLatches mask values) := .of_eq rfl rfl rfl rfl rfl

theorem setMask_undisturbed (s : State) (set : Byte) : Undisturbed s (s.setMask set) :=
  .of_eq rfl rfl rfl rfl rfl

end Sys2Proof.Machine
end

section
/-! The changes a step can make to the tables and the alarm side, and that an invariant they keep is kept by
every step. -/

namespace Sys2Proof.Machine

/-- An invariant of the tables and the alarm side: what leaves them undisturbed keeps it, and so does each
operation that changes them. -/
structure KeptByChanges (Inv : State → Prop) : Prop where
  undisturbed : ∀ {s t : State}, Undisturbed s t → Inv s → Inv t
  evaluatePoint : ∀ (s : State) (k : Key), Inv s → Inv (s.evaluatePoint k)
  acknowledge : ∀ (s : State) (k : Key), Inv s → Inv (s.acknowledge k)
  silenceHorn : ∀ s : State, Inv s → Inv s.silenceHorn
  setHornEnables : ∀ (s : State) (e1 e2 e3 : Bool), Inv s → Inv (s.setHornEnables e1 e2 e3)
  setGroup : ∀ (s : State) (g : Nat) (on : Bool), Inv s → Inv (s.setGroup g on)
  loadEntry : ∀ (s : State) (b : List Byte) (e : PointEntry), entryOfBlock b = some e →
    s.loadRefusal e = none → Inv s → Inv (s.loadEntry e)
  dropEntry : ∀ (s : State) (k : Key) (e : PointEntry), s.point k = some e → Inv s →
    Inv (s.dropEntry e)
  clearTable : ∀ s : State, Inv s → Inv s.clearTable
  restartAll : ∀ s : State, Inv s → Inv s.restartAll
  hardwareReset : ∀ (s : State) (source : ResetSource) (straps : BitVec 6),
    Inv (s.hardwareReset source straps)

namespace KeptByChanges

variable {Inv : State → Prop} (kept : KeptByChanges Inv)
include kept

/-! ### Sequences of changes -/

theorem same {s t : State} (hs : Inv s) (hp : t.points = s.points)
    (ho : t.outstations = s.outstations) (ha : t.alarms = s.alarms) (hg : t.groups = s.groups)
    (hl : t.lamps.channels = s.lamps.channels) : Inv t :=
  kept.undisturbed (.of_eq hp ho ha hg hl) hs

omit kept in
theorem foldl {α : Type} {f : State → α → State} (h : ∀ s a, Inv s → Inv (f s a)) (l : List α)
    {s : State} (hs : Inv s) : Inv (l.foldl f s) := by
  induction l generalizing s with
  | nil => exact hs
  | cons a l ih => exact ih (h s a hs)

theorem settleLamps {s : State} (hs : Inv s) : Inv s.settleLamps :=
  kept.undisturbed (settleLamps_undisturbed s) hs

theorem qualityReturn {s : State} (before : State) (scope : PointEntry → Bool) (hs : Inv s) :
    Inv (s.qualityReturn before scope) :=
  foldl kept.evaluatePoint _ hs

theorem acknowledgeAll {s : State} (scope : PointEntry → Bool) (hs : Inv s) :
    Inv (s.acknowledgeAll scope) :=
  kept.settleLamps (foldl kept.acknowledge _ hs)

/-! ### Telemetry, reports and markers -/

theorem refreshOutstation {s : State} (o : OutstationEntry) (named : Key) (hs : Inv s) :
    Inv (s.refreshOutstation o named) := by
  have h := kept.undisturbed
    (modifyOutstation_undisturbed s o.number (f := OutstationEntry.refresh) fun _ => rfl) hs
  unfold State.refreshOutstation
  split
  · exact kept.qualityReturn _ _ h
  · exact h

theorem takeValid {s : State} (k : Key) (raw : Nat) (hs : Inv s) : Inv (s.takeValid k raw) := by
  have h := kept.undisturbed (modifyPoint_undisturbed s k fun e => e.store_standing raw) hs
  unfold State.takeValid
  dsimp only
  repeat' split
  · exact kept.evaluatePoint _ _ h
  · exact h
  · exact h

theorem takeItem {s : State} (i : Item) (hs : Inv s) : Inv (s.takeItem i) := by
  have unmapped {t : State} (ht : Inv t) : Inv t.countUnmapped :=
    kept.same ht rfl rfl rfl rfl rfl
  unfold State.takeItem
  split
  · exact unmapped hs
  split
  · exact unmapped hs
  next o _ =>
    have h := kept.refreshOutstation o ⟨i.outstation, i.index⟩ hs
    dsimp only
    repeat' split
    · exact unmapped h
    · exact kept.undisturbed (modifyPoint_undisturbed _ _ fun _ => rfl) h
    · exact kept.takeValid _ _ h

theorem takePoints {s : State} (body : List Byte) (hs : Inv s) : Inv (s.takePoints body) :=
  kept.settleLamps (foldl (fun _ i => kept.takeItem i) _ hs)

theorem reportUp {s : State} (n : Nat) (hs : Inv s) : Inv (s.reportUp n) :=
  kept.settleLamps (kept.qualityReturn _ _
    (kept.undisturbed (modifyOutstation_undisturbed s n fun _ => rfl) hs))

theorem reportDown {s : State} (n : Nat) (hs : Inv s) : Inv (s.reportDown n) :=
  kept.settleLamps (kept.undisturbed (modifyOutstation_undisturbed s n fun _ => rfl) hs)

theorem takeOutstation {s : State} (body : List Byte) (hs : Inv s) :
    Inv (s.takeOutstation body) := by
  unfold State.takeOutstation
  dsimp only
  repeat' split
  · exact hs
  · exact kept.reportUp _ hs
  · exact kept.reportDown _ hs
  · exact hs

theorem setStaleLimit {s : State} (limit : Nat) (hs : Inv s) : Inv (s.setStaleLimit limit) := by
  have h := kept.undisturbed
    (outstations_undisturbed s (f := OutstationEntry.refresh) fun _ => rfl) hs
  have h' : Inv { s with
      staleLimit := limit, outstations := s.outstations.map OutstationEntry.refresh } :=
    kept.same h rfl rfl rfl rfl rfl
  exact kept.settleLamps (kept.qualityReturn _ _ h')

theorem advanceTravel {s : State} (k : Key) (hs : Inv s) : Inv (s.advanceTravel k) := by
  have h := kept.undisturbed
    (modifyPoint_undisturbed s k (f := fun e => { e with travel := e.travel + 1 }) fun _ => rfl) hs
  unfold State.advanceTravel
  dsimp only
  repeat' split
  · exact kept.evaluatePoint _ _ h
  · exact h
  · exact h

theorem withSupervisor {s : State} (v : Supervisor) (hs : Inv s) : Inv { s with supervisor := v } :=
  kept.same hs rfl rfl rfl rfl rfl

theorem judgeMarker {s : State} (arrival : State) (sync : Bool) (hs : Inv s) :
    Inv (s.judgeMarker arrival sync) := by
  have h (v : Supervisor) := kept.withSupervisor v hs
  unfold State.judgeMarker
  dsimp only
  repeat' split
  · exact h _
  · exact kept.qualityReturn _ _ (h _)
  · exact kept.undisturbed (occur_undisturbed _ _) (h _)
  · exact h _
  · exact kept.undisturbed (realign_undisturbed _) (h _)
  · exact h _

theorem takeCycle {s : State} (body : List Byte) (hs : Inv s) : Inv (s.takeCycle body) := by
  unfold State.takeCycle State.acceptMarker State.advanceTravels
  split
  · have h := foldl (fun _ k => kept.advanceTravel k)
      ((s.points.filter fun e => e.travelling && s.quality e == .good).map (·.key))
      (kept.withSupervisor (s.supervisor.record (field16 body 0) s.now) hs)
    exact kept.settleLamps (kept.judgeMarker _ _ (kept.undisturbed (countSilence_undisturbed _) h))
  · exact hs

theorem resync {s : State} (hs : Inv s) : Inv s.resync := by
  have h := kept.undisturbed (realign_undisturbed _) (kept.withSupervisor s.supervisor.unsync hs)
  unfold State.resync
  dsimp only
  split
  · exact kept.settleLamps (kept.qualityReturn _ _ h)
  · exact kept.settleLamps h

/-! ### Panel keys -/

theorem press {s : State} (i : Fin 8) (l : Line) (hs : Inv s) : Inv (s.press i l) := by
  have h := kept.undisturbed (record_undisturbed s (.key i.val l.function l.group)) hs
  unfold State.press State.performKey
  repeat' split
  · exact hs
  · exact kept.acknowledgeAll _ h
  · exact kept.acknowledgeAll _ h
  · exact kept.silenceHorn _ h
  all_goals exact h

theorem debounceExpires {s : State} (i : Fin 8) (hs : Inv s) : Inv (s.debounceExpires i) := by
  have line (f : Line → Line) := kept.undisturbed (modifyLine_undisturbed s i f) hs
  have follow {t : State} (ht : Inv t) := kept.undisturbed (followLampTest_undisturbed t) ht
  unfold State.debounceExpires
  dsimp only
  repeat' split
  · exact follow (line _)
  · exact line _
  · exact follow (kept.press _ _ (line _))
  · exact follow (line _)

theorem takeDebounce {s : State} (i : Fin 8) (hs : Inv s) : Inv (s.takeDebounce i) := by
  unfold State.takeDebounce
  split
  · exact kept.debounceExpires i (kept.undisturbed (advanceTo_undisturbed s _) hs)
  · exact hs

theorem debounceAllOver {s : State} (hs : Inv s) : Inv s.debounceAllOver := by
  unfold State.debounceAllOver
  refine foldl (fun t j ht => ?_) allLines hs
  split
  · exact kept.debounceExpires j ht
  · exact ht

theorem setLine {s : State} (i : Fin 8) (f : LineSetting) (debounce : Nat) (hs : Inv s) :
    Inv (s.setLine i f debounce) := by
  have h1 := kept.undisturbed (modifyLine_undisturbed s i (·.configure f s.now)) hs
  have h2 := kept.undisturbed (followLampTest_undisturbed _) h1
  have h3 : Inv ((s.modifyLine i (·.configure f s.now)).followLampTest.setDebounce debounce) :=
    kept.same h2 rfl rfl rfl rfl rfl
  unfold State.setLine
  exact kept.debounceAllOver h3

/-! ### Commands -/

theorem takePointLoad {s : State} (b : List Byte) (hs : Inv s) : Inv (takePointLoad b s).state := by
  unfold Machine.takePointLoad
  split
  · exact hs
  next e he =>
    split
    · exact hs
    next hr => exact kept.loadEntry s b e he hr hs

theorem takePointDrop {s : State} (b : List Byte) (hs : Inv s) : Inv (takePointDrop b s).state := by
  unfold Machine.takePointDrop
  split
  · exact hs
  next e he => exact kept.dropEntry s _ e he hs

theorem takeAckPoint {s : State} (b : List Byte) (hs : Inv s) : Inv (takeAckPoint b s).state := by
  unfold Machine.takeAckPoint
  repeat' split
  all_goals first | exact hs | exact kept.settleLamps (kept.acknowledge _ _ hs)

theorem takeGroupSet {s : State} (b : List Byte) (hs : Inv s) : Inv (takeGroupSet b s).state := by
  unfold Machine.takeGroupSet
  dsimp only
  repeat' split
  · exact kept.setGroup s _ _ hs
  · exact hs
  · exact hs

theorem takeAckGroup {s : State} (b : List Byte) (hs : Inv s) : Inv (takeAckGroup b s).state := by
  unfold Machine.takeAckGroup
  dsimp only
  split
  · exact kept.acknowledgeAll _ hs
  · exact hs

theorem takeHornSet {s : State} (b : List Byte) (hs : Inv s) : Inv (takeHornSet b s).state := by
  unfold Machine.takeHornSet
  split
  · exact kept.setHornEnables s _ _ _ hs
  · exact hs

theorem takeLineSet {s : State} (b : List Byte) (hs : Inv s) : Inv (takeLineSet b s).state := by
  unfold Machine.takeLineSet
  split
  · simpa only [Answer.ok] using kept.setLine _ _ _ hs
  · exact hs

/-- A command past its length check keeps the invariant. -/
theorem command {code : Byte} {rule : CommandRule} (hc : commandRule code = some rule) (tag : Byte)
    (params : List Byte) {s : State} (hs : Inv s) : Inv (rule.run tag params s).state := by
  have quiet {t : State} (h : Undisturbed s t) : Inv t := kept.undisturbed h hs
  unfold commandRule at hc
  split at hc <;> cases hc
  · exact hs
  · exact quiet (takeSetStation_undisturbed params s)
  · exact kept.restartAll s hs
  · exact quiet (takeSetTiming_undisturbed params s)
  · exact kept.resync hs
  · exact quiet (takeSetCadence_undisturbed params s)
  · exact kept.takePointLoad params hs
  · exact kept.takePointDrop params hs
  · exact quiet (takePointRead_undisturbed params s)
  · exact kept.clearTable s hs
  · exact hs
  · exact kept.takeGroupSet params hs
  · exact quiet (takeOutstationRead_undisturbed params s)
  · exact kept.setStaleLimit _ hs
  · exact kept.takeAckPoint params hs
  · exact kept.takeAckGroup params hs
  · exact kept.acknowledgeAll _ hs
  · exact kept.silenceHorn s hs
  · exact kept.takeHornSet params hs
  · exact quiet (takeLampOverride_undisturbed params s)
  · exact quiet (takeLampRead_undisturbed params s)
  · exact quiet (takeHold_undisturbed params s)
  · exact quiet (takeProve_undisturbed tag params s)
  · exact quiet (takeClearLampFaults_undisturbed params s)
  · exact kept.takeLineSet params hs
  · exact quiet (writeLatches_undisturbed s _ _)
  · exact hs
  · exact quiet (clearConditions_undisturbed s _)
  · exact quiet (raiseConditions_undisturbed s _)
  · exact quiet (setMask_undisturbed s _)

/-! ### Frames and bytes -/

theorem takeAddressed {s : State} (station tag code : Byte) (params : List Byte) (hs : Inv s) :
    Inv (s.takeAddressed station tag code params) := by
  have h : Inv (s.execute tag code params).state := by
    unfold State.execute
    split
    · exact hs
    next hc =>
      split
      · exact kept.command hc tag params hs
      · exact hs
  unfold State.takeAddressed
  split
  · exact kept.undisturbed (settle_undisturbed _ _ _ _) h
  · exact kept.undisturbed (dropCommand_undisturbed s) hs

theorem takeBroadcast {s : State} (tag code : Byte) (params : List Byte) (hs : Inv s) :
    Inv (s.takeBroadcast tag code params) := by
  unfold State.takeBroadcast
  split
  · exact hs
  next hc =>
    split
    · exact kept.command hc tag params hs
    · exact hs

theorem takeTelemetry {s : State} (f : Frame) (hs : Inv s) : Inv (s.takeTelemetry f) := by
  unfold State.takeTelemetry
  repeat' split
  · exact kept.takeCycle _ hs
  · exact kept.takePoints _ hs
  · exact kept.takeOutstation _ hs

theorem arrive {s : State} (f : Frame) (hs : Inv s) : Inv (s.arrive f) := by
  have hr := kept.undisturbed (received_undisturbed s) hs
  have hf := kept.undisturbed (forward_undisturbed s.received f) hr
  unfold State.arrive State.forwardingDecision State.takeAddressedBody State.takeBroadcastBody
  repeat' split
  · exact kept.same hr rfl rfl rfl rfl rfl
  · exact kept.takeTelemetry f hf
  · exact kept.undisturbed (forward_undisturbed _ _)
      (kept.same (t := s.received.countForeign) hr rfl rfl rfl rfl rfl)
  · exact kept.takeAddressed _ _ _ _ hr
  · exact hr
  · exact kept.takeBroadcast _ _ _ hf
  all_goals exact hf

theorem receiveByte {s : State} (b : Byte) (hs : Inv s) : Inv (s.receiveByte b) := by
  have receiver (r : Receiver) := kept.undisturbed (withReceiver_undisturbed s r) hs
  have error := kept.undisturbed (frameError_undisturbed s) hs
  have hunting := kept.same (t := s.hunt) hs rfl rfl rfl rfl rfl
  unfold State.receiveByte State.judgeFrame
  dsimp only
  repeat' split
  all_goals first | exact hs | exact receiver _ | exact error | exact hunting | exact kept.arrive _ hs

/-! ### Own events and the step -/

theorem ownEvent (e : OwnEvent) (currents : BitVec 256) {s : State} (hs : Inv s) :
    Inv (e.take currents s) := by
  have h := kept.undisturbed (granted_undisturbed s) hs
  cases e with
  | grant => exact h
  | started => exact kept.undisturbed (takeStarted_undisturbed _) h
  | gap => exact kept.undisturbed (takeTruncated_undisturbed _) h
  | sent => exact kept.undisturbed (takeTransmissionEnd_undisturbed _) h
  | lateBound => exact kept.undisturbed (takeLateBound_undisturbed _) h
  | dwell => exact kept.undisturbed (takeDwellEnd_undisturbed _ _) h
  | hold => exact kept.undisturbed (takeHoldExpiry_undisturbed _) h
  | phase c => exact kept.undisturbed (takePhaseEnd_undisturbed _ _ _) h
  | debounce i => exact kept.takeDebounce i h
  | sense => exact kept.undisturbed (takeSenseTimer_undisturbed _ _) h

theorem drawCurrents {s : State} (hs : Inv s) : Inv s.drawCurrents :=
  kept.same hs rfl rfl rfl rfl rfl

theorem takeCharacter {s : State} (c : Character) (hs : Inv s) : Inv (s.takeCharacter c) := by
  have begun := kept.undisturbed (granted_undisturbed _) (kept.undisturbed (startBit_undisturbed s) hs)
  have ended := passUntil_keeps Inv (s.clock + Config.characterTime)
    (fun t e ht _ => kept.ownEvent e _ (kept.drawCurrents ht))
    (fun t us ht => kept.undisturbed (advanceTo_undisturbed t us) ht) Config.eventsPerCharacter _ begun
  exact kept.receiveByte _ (kept.undisturbed (granted_undisturbed _) ended)

end KeptByChanges

/-- A frame row is the arrival of its frame, once a grant that is due is made. -/
theorem exec_frameOf {i : Instr} {f : Frame} (h : frameOf i = some f) (s : State) :
    exec i s = .next (s.granted.arrive f) := by
  cases i <;> cases h <;> rfl

namespace KeptByChanges

variable {Inv : State → Prop} (kept : KeptByChanges Inv)
include kept

theorem exec {i : Instr} {s t : State} (hs : Inv s) (h : Machine.exec i s = .next t) : Inv t := by
  have hg := kept.undisturbed (granted_undisturbed s) hs
  cases hf : frameOf i with
  | some f =>
    rw [exec_frameOf hf] at h
    cases h
    exact kept.arrive f hg
  | none =>
    have own (e : OwnEvent) (currents : BitVec 256)
        (h : Machine.exec (e.row currents) s = .next t) : Inv t := by
      rw [exec_row] at h
      cases h
      exact kept.ownEvent e currents hs
    cases i with
    | hardwareReset source straps =>
      simp only [Machine.exec, execHardwareReset] at h
      split at h <;> cases h
      · exact kept.hardwareReset s source straps
      · exact hg
    | badLength => cases h; exact kept.undisturbed (frameError_undisturbed _) hg
    | badCrc => cases h; exact kept.undisturbed (frameError_undisturbed _) hg
    | pinChange line level => cases h; exact kept.undisturbed (modifyLine_undisturbed _ _ _) hg
    | byteReceived character => cases h; exact kept.takeCharacter character hg
    | startedRecordQueued => exact own .started 0 h
    | truncated => exact own .gap 0 h
    | lateBoundExpiry => exact own .lateBound 0 h
    | holdExpiry => exact own .hold 0 h
    | dwellEnd currents => exact own .dwell currents h
    | senseTimerExpiry currents => exact own .sense currents h
    | phaseEnd generator currents => exact own (.phase generator) currents h
    | debounceExpiry line => exact own (.debounce line) 0 h
    | grant => exact own .grant 0 h
    | transmissionEnd => exact own .sent 0 h
    | _ => cases hf

/-- What the changes keep, every step keeps. -/
theorem step {s t : State} (hs : Inv s) (h : Machine.step s = .next t) : Inv t := by
  unfold Machine.step idleStep at h
  repeat' split at h
  · exact kept.exec (kept.undisturbed (withPending_undisturbed s _) hs) h
  · exact kept.exec (s := s.drawCurrents) (kept.drawCurrents hs) h
  · cases h
    exact kept.undisturbed (advanceTo_undisturbed s _) hs

end KeptByChanges

end Sys2Proof.Machine
end

section
/-! The sorted tables: lookups, insertion, replacement and removal (R1, R12, R14, R16, R20), and the owner of a
channel (R5). -/

namespace Sys2Proof.Machine

/-! ### The order of keys -/

theorem Key.lt_iff (a b : Key) : a.lt b = true ↔
    a.outstation < b.outstation ∨ (a.outstation = b.outstation ∧ a.index < b.index) := by
  simp [Key.lt]

theorem Key.lt_trans {a b c : Key} (h : a.lt b = true) (h' : b.lt c = true) : a.lt c = true := by
  rw [Key.lt_iff] at *
  omega

theorem Key.lt_of_not_lt {a b : Key} (h : ¬ a.lt b = true) (hne : a ≠ b) : b.lt a = true := by
  obtain ⟨ao, ai⟩ := a
  obtain ⟨bo, bi⟩ := b
  simp only [Key.lt_iff, ne_eq, Key.mk.injEq] at *
  omega

/-! ### The Point Table -/

/-- A new entry stands behind the keys below its own and before the others (R12). -/
theorem insertPoint_eq {e : PointEntry} {l : List PointEntry}
    (h : l.Pairwise fun a b => a.key.lt b.key) (hne : ∀ x ∈ l, x.key ≠ e.key) :
    insertPoint e l =
      l.filter (fun x => x.key.lt e.key) ++ e :: l.filter (fun x => !x.key.lt e.key) := by
  induction l with
  | nil => rfl
  | cons x l ih =>
    obtain ⟨hx, hl⟩ := List.pairwise_cons.1 h
    have ih := ih hl fun y hy => hne y (by simp [hy])
    unfold insertPoint
    by_cases hlt : e.key.lt x.key = true
    · have above : ∀ y ∈ x :: l, ¬ y.key.lt e.key = true := by
        intro y hy hye
        have hey : e.key.lt y.key = true := by
          rcases List.mem_cons.1 hy with rfl | hy
          · exact hlt
          · exact Key.lt_trans hlt (hx y hy)
        exact Key.ne_of_lt (Key.lt_trans hey hye) rfl
      rw [if_pos hlt, List.filter_eq_nil_iff.2 above, List.filter_eq_self.2]
      · rfl
      · exact fun y hy => by simp [above y hy]
    · have hxe := Key.lt_of_not_lt hlt (hne x (by simp)).symm
      rw [if_neg hlt, ih]
      simp [hxe]

theorem insertPoint_perm (e : PointEntry) (l : List PointEntry) :
    (insertPoint e l).Perm (e :: l) := by
  induction l with
  | nil => exact .refl _
  | cons x l ih =>
    unfold insertPoint
    split
    · exact .refl _
    · exact (ih.cons x).trans (.swap e x l)

theorem insertPoint_sorted {e : PointEntry} {l : List PointEntry}
    (h : l.Pairwise fun a b => a.key.lt b.key) (hne : ∀ x ∈ l, x.key ≠ e.key) :
    (insertPoint e l).Pairwise fun a b => a.key.lt b.key := by
  rw [insertPoint_eq h hne, List.pairwise_append]
  refine ⟨h.filter _, List.pairwise_cons.2 ⟨fun y hy => ?_, h.filter _⟩, fun x hx y hy => ?_⟩
  · obtain ⟨hy, hey⟩ := List.mem_filter.1 hy
    exact Key.lt_of_not_lt (by simpa using hey) (hne y hy)
  · obtain ⟨-, hxe⟩ := List.mem_filter.1 hx
    rcases List.mem_cons.1 hy with rfl | hy
    · exact hxe
    · obtain ⟨hy, hey⟩ := List.mem_filter.1 hy
      exact Key.lt_trans hxe (Key.lt_of_not_lt (by simpa using hey) (hne y hy))

/-- The order of the keys is a matter of the keys alone. -/
theorem sorted_congr {l l' : List PointEntry} (h : l'.map (·.key) = l.map (·.key)) :
    (l'.Pairwise fun a b => a.key.lt b.key) ↔ l.Pairwise fun a b => a.key.lt b.key := by
  rw [← List.pairwise_map (f := PointEntry.key) (R := fun a b => a.lt b = true), h,
    List.pairwise_map]

theorem KeysDistinct.eq {l : List PointEntry} (h : KeysDistinct l) {a b : PointEntry} (ha : a ∈ l)
    (hb : b ∈ l) (hk : a.key = b.key) : a = b :=
  List.inj_on_of_nodup_map ((keysDistinct_iff l).1 h) ha hb hk

theorem TablesInOrder.distinct {s : State} (h : TablesInOrder s) : KeysDistinct s.points :=
  KeysRise.distinct h.points

theorem point_key {s : State} {k : Key} {e : PointEntry} (h : s.point k = some e) : e.key = k := by
  simpa using List.find?_some h

theorem point_mem {s : State} {k : Key} {e : PointEntry} (h : s.point k = some e) : e ∈ s.points :=
  List.mem_of_find?_eq_some h

theorem point_eq_none {s : State} {k : Key} : s.point k = none ↔ ∀ x ∈ s.points, x.key ≠ k := by
  simp [State.point]

theorem mem_insertPoint {e x : PointEntry} {l : List PointEntry} :
    x ∈ insertPoint e l ↔ x = e ∨ x ∈ l := by
  rw [(insertPoint_perm e l).mem_iff, List.mem_cons]

/-- Of the entries with distinct keys one is replaced by another of its key. -/
theorem mem_modifyPoint_const {l : List PointEntry} {old e x : PointEntry}
    (hold : old ∈ l) (hk : old.key = e.key) :
    x ∈ modifyPoint e.key (fun _ => e) l ↔ x = e ∨ (x ∈ l ∧ x.key ≠ e.key) := by
  simp only [modifyPoint, List.mem_map]
  constructor
  · rintro ⟨y, hy, rfl⟩
    by_cases hye : y.key = e.key
    · simp [hye]
    · exact .inr (by simp [hye, hy])
  · rintro (rfl | ⟨hx, hxe⟩)
    · exact ⟨old, hold, by simp [hk]⟩
    · exact ⟨x, hx, by simp [hxe]⟩

/-! ### Counting entries -/

/-- How many entries of a list with distinct keys satisfy a predicate changes by the one entry changed. -/
theorem countP_modifyPoint {l : List PointEntry} (hd : KeysDistinct l) {e : PointEntry}
    (he : e ∈ l) (f : PointEntry → PointEntry) (p : PointEntry → Bool) :
    (modifyPoint e.key f l).countP p + one (p e) = l.countP p + one (p (f e)) := by
  induction l with
  | nil => cases he
  | cons x l ih =>
    obtain ⟨hx, hl⟩ := List.pairwise_cons.1 hd
    have tail : x.key = e.key → modifyPoint e.key f l = l := by
      intro hxe
      refine (List.map_congr_left fun y hy => ?_).trans (List.map_id l)
      exact if_neg fun hye => hx y hy (hxe.trans hye.symm)
    rcases List.mem_cons.1 he with rfl | he
    · have := tail rfl
      simp only [modifyPoint, List.map_cons, if_true, List.countP_cons, one] at this ⊢
      rw [this]
      omega
    · have hne : ¬ x.key = e.key := hx e he
      have := ih hl he
      simp only [modifyPoint, List.map_cons, if_neg hne, List.countP_cons] at this ⊢
      omega

/-- Of a list with distinct keys, the entries of other keys than one it holds lack that entry alone. -/
theorem countP_filter_key {l : List PointEntry} (hd : KeysDistinct l) {e : PointEntry} (he : e ∈ l)
    (p : PointEntry → Bool) :
    (l.filter fun x => x.key != e.key).countP p + one (p e) = l.countP p := by
  induction l with
  | nil => cases he
  | cons x l ih =>
    obtain ⟨hx, hl⟩ := List.pairwise_cons.1 hd
    rcases List.mem_cons.1 he with rfl | he
    · have : l.filter (fun y => y.key != e.key) = l :=
        List.filter_eq_self.2 fun y hy => by simpa using (hx y hy).symm
      simp [this, List.countP_cons, one]
    · have hne : x.key ≠ e.key := hx e he
      have := ih hl he
      rw [List.filter_cons_of_pos (by simpa using hne), List.countP_cons, List.countP_cons]
      omega

theorem length_filter_key {l : List PointEntry} (hd : KeysDistinct l) {e : PointEntry} (he : e ∈ l) :
    (l.filter fun x => x.key != e.key).length + 1 = l.length := by
  simpa [one] using countP_filter_key hd he fun _ => true

/-! ### The Outstation Table -/

/-- The outstations in ascending order (R20). -/
def NumbersRise (l : List OutstationEntry) : Prop := l.Pairwise fun a b => a.number < b.number

theorem find?_number {l : List OutstationEntry} (h : NumbersRise l) {n : Nat}
    {o : OutstationEntry} :
    l.find? (fun x => decide (x.number = n)) = some o ↔ o ∈ l ∧ o.number = n := by
  constructor
  · intro hf
    exact ⟨List.mem_of_find?_eq_some hf, by simpa using List.find?_some hf⟩
  · rintro ⟨ho, rfl⟩
    induction l with
    | nil => cases ho
    | cons x l ih =>
      obtain ⟨hx, hl⟩ := List.pairwise_cons.1 h
      rcases List.mem_cons.1 ho with rfl | ho
      · simp
      · rw [List.find?_cons_of_neg]
        · exact ih hl ho
        · simpa using Nat.ne_of_lt (hx o ho)

theorem outstation_eq_some {s : State} (h : NumbersRise s.outstations) {n : Nat}
    {o : OutstationEntry} : s.outstation n = some o ↔ o ∈ s.outstations ∧ o.number = n :=
  find?_number h

theorem outstation_eq_none {s : State} {n : Nat} :
    s.outstation n = none ↔ ∀ o ∈ s.outstations, o.number ≠ n := by
  simp [State.outstation]

theorem insertOutstation_perm (o : OutstationEntry) (l : List OutstationEntry) :
    (insertOutstation o l).Perm (o :: l) := by
  induction l with
  | nil => exact .refl _
  | cons x l ih =>
    unfold insertOutstation
    split
    · exact .refl _
    · exact (ih.cons x).trans (.swap o x l)

theorem insertOutstation_rises {o : OutstationEntry} {l : List OutstationEntry}
    (h : NumbersRise l) (hne : ∀ x ∈ l, x.number ≠ o.number) :
    NumbersRise (insertOutstation o l) := by
  induction l with
  | nil => exact List.pairwise_singleton _ _
  | cons x l ih =>
    obtain ⟨hx, hl⟩ := List.pairwise_cons.1 h
    have hxo := hne x (by simp)
    unfold insertOutstation
    split
    next hlt =>
      refine List.pairwise_cons.2 ⟨fun y hy => ?_, h⟩
      rcases List.mem_cons.1 hy with rfl | hy
      · exact hlt
      · exact Nat.lt_trans hlt (hx y hy)
    next hlt =>
      refine List.pairwise_cons.2 ⟨fun y hy => ?_, ih hl fun y hy => hne y (by simp [hy])⟩
      rw [(insertOutstation_perm o l).mem_iff] at hy
      rcases List.mem_cons.1 hy with rfl | hy
      · omega
      · exact hx y hy

theorem NumbersRise.map {l : List OutstationEntry} (h : NumbersRise l)
    {f : OutstationEntry → OutstationEntry} (hf : ∀ o, (f o).number = o.number) :
    NumbersRise (l.map f) := by
  unfold NumbersRise at *
  rw [List.pairwise_map]
  simpa only [hf] using h

theorem modifyOutstation_rises {l : List OutstationEntry} (h : NumbersRise l) (n : Nat)
    {f : OutstationEntry → OutstationEntry} (hf : ∀ o, (f o).number = o.number) :
    NumbersRise (modifyOutstation n f l) :=
  h.map fun o => by by_cases ho : o.number = n <;> simp [ho, hf]

/-- A change of an outstation's entry that keeps its number is seen under that number alone. -/
theorem find?_modifyOutstation (l : List OutstationEntry) (n : Nat)
    {f : OutstationEntry → OutstationEntry} (hf : ∀ o, (f o).number = o.number) (m : Nat) :
    (modifyOutstation n f l).find? (fun x => decide (x.number = m)) =
      (l.find? fun x => decide (x.number = m)).map fun o => if m = n then f o else o := by
  induction l with
  | nil => rfl
  | cons x l ih =>
    have hx : (if x.number = n then f x else x).number = x.number := by split <;> simp [hf]
    unfold modifyOutstation at ih ⊢
    rw [List.map_cons]
    by_cases hm : x.number = m
    · rw [List.find?_cons_of_pos (by rw [hx]; simp [hm]), List.find?_cons_of_pos (by simp [hm])]
      simp [hm]
    · rw [List.find?_cons_of_neg (by rw [hx]; simp [hm]), List.find?_cons_of_neg (by simp [hm]), ih]

theorem gainPoint_rises {s : State} (h : NumbersRise s.outstations) (n : Nat) :
    NumbersRise (s.gainPoint n).outstations := by
  unfold State.gainPoint
  split
  · exact modifyOutstation_rises h n fun _ => rfl
  next hn => exact insertOutstation_rises h (outstation_eq_none.1 hn)

/-- An outstation gains a point: its count rises, or its entry appears with a count of 1 (R12, R20). -/
theorem gainPoint_outstation {s : State} (h : NumbersRise s.outstations) (n m : Nat) :
    (s.gainPoint n).outstation m =
      if m = n then some ((s.outstation n).elim (.create n) OutstationEntry.gain)
      else s.outstation m := by
  cases hn : s.outstation n with
  | some o =>
    have hg : (s.gainPoint n).outstations = modifyOutstation n OutstationEntry.gain s.outstations := by
      simp [State.gainPoint, hn]
    rw [State.outstation, hg, find?_modifyOutstation _ n (f := OutstationEntry.gain) fun _ => rfl]
    change (s.outstation m).map _ = _
    by_cases hm : m = n
    · simp [hm, hn]
    · simp [hm]
  | none =>
    have hg : (s.gainPoint n).outstations = insertOutstation (.create n) s.outstations := by
      simp [State.gainPoint, hn]
    have hr : NumbersRise (s.gainPoint n).outstations := gainPoint_rises h n
    have mem (o : OutstationEntry) : o ∈ (s.gainPoint n).outstations ↔
        o = .create n ∨ o ∈ s.outstations := by
      rw [hg, (insertOutstation_perm _ _).mem_iff, List.mem_cons]
    have absent := outstation_eq_none.1 hn
    by_cases hm : m = n
    · rw [if_pos hm, outstation_eq_some hr, mem]
      exact ⟨.inl rfl, hm.symm⟩
    · rw [if_neg hm]
      ext o
      rw [outstation_eq_some hr, outstation_eq_some h, mem]
      constructor
      · rintro ⟨rfl | ho, hnum⟩
        · exact absurd hnum.symm hm
        · exact ⟨ho, hnum⟩
      · exact fun ⟨ho, hnum⟩ => ⟨.inr ho, hnum⟩

theorem losePoint_rises {s : State} (h : NumbersRise s.outstations) (n : Nat) :
    NumbersRise (s.losePoint n).outstations :=
  (modifyOutstation_rises h n (f := OutstationEntry.lose) fun _ => rfl).filter _

/-- An outstation loses a point: its count falls, and an entry with no point left goes (R16, R20). -/
theorem losePoint_outstation {s : State} (h : NumbersRise s.outstations) (n m : Nat) :
    (s.losePoint n).outstation m =
      if m = n then (s.outstation n).bind fun o => if o.points ≤ 1 then none else some o.lose
      else s.outstation m := by
  have hr := modifyOutstation_rises h n (f := OutstationEntry.lose) fun _ => rfl
  have lookup := find?_modifyOutstation s.outstations n (f := OutstationEntry.lose) (fun _ => rfl) m
  ext o
  have mem : (s.losePoint n).outstation m = some o ↔
      (s.outstation m).map (fun o => if m = n then o.lose else o) = some o ∧
        ¬ (m = n ∧ o.points = 0) := by
    rw [outstation_eq_some (losePoint_rises h n)]
    change o ∈ List.filter _ _ ∧ _ ↔ Option.map _ (List.find? _ _) = some o ∧ _
    rw [← lookup, find?_number hr, List.mem_filter]
    constructor
    · rintro ⟨⟨ho, hp⟩, rfl⟩
      exact ⟨⟨ho, rfl⟩, by simpa [imp_iff_not_or] using hp⟩
    · rintro ⟨⟨ho, rfl⟩, hp⟩
      exact ⟨⟨ho, by simpa [imp_iff_not_or] using hp⟩, rfl⟩
  rw [mem]
  by_cases hm : m = n
  · subst hm
    cases s.outstation m with
    | none => simp
    | some x =>
      simp only [Option.map_some, if_true, true_and, Option.bind_some, Option.some.injEq]
      by_cases hx : x.points ≤ 1
      · simp only [hx, if_true, reduceCtorEq, iff_false]
        rintro ⟨rfl, hp⟩
        exact hp (by simp [OutstationEntry.lose]; omega)
      · simp only [hx, if_false, Option.some.injEq]
        constructor
        · exact And.left
        · rintro rfl
          exact ⟨rfl, by simp [OutstationEntry.lose]; omega⟩
  · simp [hm]

theorem length_losePoint_le (s : State) (n : Nat) :
    (s.losePoint n).outstations.length ≤ s.outstations.length :=
  (List.length_filter_le _ _).trans (by simp [modifyOutstation])

/-! ### The owner of a channel -/

theorem PointEntry.owns_iff (e : PointEntry) (c : Nat) :
    e.owns c = true ↔ e.firstLamp ≤ c ∧ c < e.firstLamp + e.span := by
  simp [PointEntry.owns]

/-- The lamps of the entries of a list lie apart (R5). -/
def LampsApart (l : List PointEntry) : Prop :=
  ∀ a ∈ l, ∀ b ∈ l, a ≠ b → a.firstLamp + a.span ≤ b.firstLamp ∨ b.firstLamp + b.span ≤ a.firstLamp

theorem KeysDistinct.nodup {l : List PointEntry} (h : KeysDistinct l) : l.Nodup :=
  List.Pairwise.imp (fun hab he => hab (congrArg _ he)) h

theorem lampsApart_iff {l : List PointEntry} (h : KeysDistinct l) : LampsApart l ↔
    l.Pairwise fun a b => a.firstLamp + a.span ≤ b.firstLamp ∨ b.firstLamp + b.span ≤ a.firstLamp := by
  constructor
  · intro ha
    exact h.nodup.pairwise_of_forall_ne fun a hal b hbl hne => ha a hal b hbl hne
  · intro hp a ha b hb hne
    have : Std.Symm fun a b : PointEntry =>
        a.firstLamp + a.span ≤ b.firstLamp ∨ b.firstLamp + b.span ≤ a.firstLamp :=
      ⟨fun _ _ => Or.symm⟩
    exact hp.forall ha hb hne

/-- The key of the first entry that owns a channel (R5). -/
def ownerKey (l : List PointEntry) (c : Nat) : Option Key :=
  (l.find? fun e => e.firstLamp ≤ c ∧ c < e.firstLamp + e.span).map (·.key)

theorem ownerKey_of_mem {l : List PointEntry} (h : LampsApart l) {e : PointEntry} (he : e ∈ l)
    {c : Nat} (hc : e.owns c = true) : ownerKey l c = some e.key := by
  rw [PointEntry.owns_iff] at hc
  unfold ownerKey
  cases hf : l.find? fun e => e.firstLamp ≤ c ∧ c < e.firstLamp + e.span with
  | none => exact absurd (List.find?_eq_none.1 hf e he) (by simpa using hc)
  | some x =>
    have hx : x.firstLamp ≤ c ∧ c < x.firstLamp + x.span := by simpa using List.find?_some hf
    by_cases hxe : x = e
    · rw [hxe]; rfl
    · have := h x (List.mem_of_find?_eq_some hf) e he hxe
      omega

theorem ownerKey_eq_some {l : List PointEntry} (h : LampsApart l) {c : Nat} {k : Key} :
    ownerKey l c = some k ↔ ∃ e ∈ l, e.key = k ∧ e.owns c = true := by
  constructor
  · intro hk
    obtain ⟨e, hf, rfl⟩ := Option.map_eq_some_iff.1 hk
    exact ⟨e, List.mem_of_find?_eq_some hf, rfl,
      (e.owns_iff c).2 (by simpa using List.find?_some hf)⟩
  · rintro ⟨e, he, rfl, hc⟩
    exact ownerKey_of_mem h he hc

theorem TablesInOrder.lampsApart {s : State} (h : TablesInOrder s) : LampsApart s.points :=
  (lampsApart_iff h.distinct).2 h.apart

/-- A binding names the entry that owns the channel (R5). -/
theorem TablesInOrder.binding_eq_some {s : State} (h : TablesInOrder s) {c : Nat} (hc : c < 256)
    {k : Key} : s.lamps.channels[c].binding = some k ↔
      ∃ e ∈ s.points, e.key = k ∧ e.owns c = true := by
  rw [h.bound c hc]
  exact ownerKey_eq_some h.lampsApart

/-- A channel is bound to a held key exactly where its entry owns it. -/
theorem TablesInOrder.binding_of_held {s : State} (h : TablesInOrder s) {c : Nat} (hc : c < 256)
    {k : Key} {e : PointEntry} (he : s.point k = some e) :
    s.lamps.channels[c].binding = some k ↔ e.owns c = true := by
  rw [h.binding_eq_some hc]
  constructor
  · rintro ⟨x, hx, hxk, hxc⟩
    rwa [h.distinct.eq (point_mem he) hx ((point_key he).trans hxk.symm)]
  · exact fun hec => ⟨e, point_mem he, point_key he, hec⟩

theorem TablesInOrder.binding_of_not_held {s : State} (h : TablesInOrder s) {c : Nat} (hc : c < 256)
    {k : Key} (hk : s.point k = none) : s.lamps.channels[c].binding ≠ some k := by
  rw [Ne, h.binding_eq_some hc]
  rintro ⟨x, hx, hxk, -⟩
  exact point_eq_none.1 hk x hx hxk

end Sys2Proof.Machine
end

section
/-! The POINT LOAD block: which blocks describe an entry, what the entry holds, and the checks in the words of
R7 to R11. -/

namespace Sys2Proof.Machine

/-! ### The fields of a block (R7) -/

theorem boolOfCode_eq_some {n : Nat} {v : Bool} : boolOfCode n = some v ↔ n ≤ 1 ∧ v = decide (n = 1) := by
  match n with
  | 0 => cases v <;> simp [boolOfCode]
  | 1 => cases v <;> simp [boolOfCode]
  | n + 2 => simp [boolOfCode]

theorem boolOfCode_eq_none {n : Nat} : boolOfCode n = none ↔ 1 < n := by
  match n with
  | 0 => simp [boolOfCode]
  | 1 => simp [boolOfCode]
  | n + 2 => simp [boolOfCode]

theorem stalePolicyOfCode_eq_none {n : Nat} :
    stalePolicyOfCode n = none ↔ ¬ (n = 1 ∨ n = 2 ∨ n = 3) := by
  match n with
  | 0 => simp [stalePolicyOfCode]
  | 1 => simp [stalePolicyOfCode]
  | 2 => simp [stalePolicyOfCode]
  | 3 => simp [stalePolicyOfCode]
  | n + 4 => simp [stalePolicyOfCode]

theorem stalePolicyOfCode_eq_some {n : Nat} {p : StalePolicy} :
    stalePolicyOfCode n = some p ↔ p.code = n := by
  match n with
  | 0 => cases p <;> simp [stalePolicyOfCode, StalePolicy.code]
  | 1 => cases p <;> simp [stalePolicyOfCode, StalePolicy.code]
  | 2 => cases p <;> simp [stalePolicyOfCode, StalePolicy.code]
  | 3 => cases p <;> simp [stalePolicyOfCode, StalePolicy.code]
  | n + 4 => cases p <;> simp [stalePolicyOfCode, StalePolicy.code]

/-- The class field of a BINARY block. -/
theorem classField_binary {b : List Byte} (h : upperNibble b 3 = 1) : classField b =
    if (lowerNibble b 3 = 1 ∨ lowerNibble b 3 = 2) ∧ upperNibble b 8 ≤ 1 ∧ field8 b 5 = 1 then
      some (.binary (lowerNibble b 3 = 2) (upperNibble b 8 = 1))
    else none := by
  simp only [classField, h]
  generalize lowerNibble b 3 = mode
  cases hv : boolOfCode (upperNibble b 8) with
  | none =>
    have : ¬ upperNibble b 8 ≤ 1 := by have := boolOfCode_eq_none.1 hv; omega
    simp [this]
  | some normal =>
    obtain ⟨hle, rfl⟩ := boolOfCode_eq_some.1 hv
    match mode with
    | 0 => simp
    | 1 => simp [hle]
    | 2 => simp [hle]
    | n + 3 => simp

/-- The class field of a DOUBLE block. -/
theorem classField_double {b : List Byte} (h : upperNibble b 3 = 2) : classField b =
    if lowerNibble b 3 = 0 ∧ lowerNibble b 8 ≤ 1 ∧ field8 b 5 = 2 then
      some (.double (field8 b 9) (lowerNibble b 8 = 1))
    else none := by
  simp only [classField, h]
  generalize lowerNibble b 3 = mode
  cases hv : boolOfCode (lowerNibble b 8) with
  | none =>
    have : ¬ lowerNibble b 8 ≤ 1 := by have := boolOfCode_eq_none.1 hv; omega
    simp [this]
  | some disagree =>
    obtain ⟨hle, rfl⟩ := boolOfCode_eq_some.1 hv
    match mode with
    | 0 => simp [hle]
    | n + 1 => simp

/-- The class field of an ANALOGUE block. -/
theorem classField_analogue {b : List Byte} (h : upperNibble b 3 = 3) : classField b =
    if (lowerNibble b 3 = 3 ∨ lowerNibble b 3 = 4) ∧ 1 ≤ field8 b 5 ∧ field8 b 5 ≤ 16 then
      some (.analogue (if lowerNibble b 3 = 3 then .bar else .dot) (analogueField b))
    else none := by
  simp only [classField, h]
  generalize lowerNibble b 3 = mode
  match mode with
  | 0 => simp
  | 1 => simp
  | 2 => simp
  | 3 => simp
  | 4 => simp
  | n + 5 => simp

theorem classField_other {b : List Byte}
    (h : ¬ (upperNibble b 3 = 1 ∨ upperNibble b 3 = 2 ∨ upperNibble b 3 = 3)) :
    classField b = none := by
  unfold classField
  dsimp only
  revert h
  match upperNibble b 3 with
  | 0 => simp
  | 1 => simp
  | 2 => simp
  | 3 => simp
  | n + 4 => simp

/-- R7, taken apart: the ranges of outstation, group and priority, the class with its fields, the stale
policy. -/
theorem badFields_iff {b : List Byte} : BadFields b ↔
    ¬ (1 ≤ field16 b 0 ∧ field16 b 0 ≤ 4095 ∧ field8 b 6 ≤ 16 ∧ upperNibble b 7 ≤ 3) ∨
      classField b = none ∨ stalePolicyOfCode (lowerNibble b 7) = none := by
  rw [stalePolicyOfCode_eq_none]
  unfold BadFields
  by_cases h1 : upperNibble b 3 = 1
  · simp [classField_binary h1, h1]
    omega
  by_cases h2 : upperNibble b 3 = 2
  · simp [classField_double h2, h2]
    omega
  by_cases h3 : upperNibble b 3 = 3
  · simp [classField_analogue h3, h3]
    omega
  simp [classField_other (b := b) (by omega), h1, h2, h3]

/-- The first check refuses the blocks with a field out of range (R7). -/
theorem entryOfBlock_eq_none {b : List Byte} : entryOfBlock b = none ↔ BadFields b := by
  rw [badFields_iff]
  unfold entryOfBlock
  dsimp only
  split
  next hin =>
    simp only [keyField] at hin
    cases classField b <;> cases stalePolicyOfCode (lowerNibble b 7) <;> simp [hin]
  next hout =>
    simp only [keyField] at hout
    simp [hout]

/-- An entry that a block describes holds the block's configuration, and its dynamic fields are fresh. -/
theorem loadedFrom_of_entryOfBlock {b : List Byte} {e : PointEntry} (h : entryOfBlock b = some e) :
    LoadedFrom e b := by
  have hgood : ¬ BadFields b := fun hb => by simp [entryOfBlock_eq_none.2 hb] at h
  unfold entryOfBlock at h
  dsimp only at h
  split at h
  · split at h
    next cls policy hcls hpol =>
      cases h
      refine ⟨rfl, ⟨rfl, rfl⟩, rfl, rfl, stalePolicyOfCode_eq_some.1 hpol, ?_, ?_, ?_,
        ⟨rfl, rfl, rfl, rfl, rfl, rfl⟩, rfl⟩
      · intro h1
        rw [classField_binary h1] at hcls
        split at hcls <;> cases hcls
        rfl
      · intro h2
        rw [classField_double h2] at hcls
        split at hcls <;> cases hcls
        rfl
      · intro h3
        rw [classField_analogue h3] at hcls
        split at hcls <;> cases hcls
        rfl
    next => cases h
  · cases h

theorem field8_lt (b : List Byte) (i : Nat) : field8 b i < 256 := (b.getD i 0).isLt

theorem field16_lt (b : List Byte) (i : Nat) : field16 b i < 65536 := by
  have := field8_lt b i
  have := field8_lt b (i + 1)
  unfold field16
  omega

/-- What R7 lets pass: the ranges of the key, the span by the class, the group and the priority. -/
structure InRange (e : PointEntry) : Prop where
  key : 1 ≤ e.key.outstation ∧ e.key.outstation ≤ 4095 ∧ e.key.index ≤ 255
  span : match e.cls with
    | .binary _ _ => e.span = 1
    | .double _ _ => e.span = 2
    | .analogue _ _ => 1 ≤ e.span ∧ e.span ≤ 16
  group : e.group ≤ 16
  priority : e.priority ≤ 3

theorem LoadedFrom.inRange {b : List Byte} {e : PointEntry} (h : LoadedFrom e b)
    (hgood : ¬ BadFields b) : InRange e := by
  simp only [badFields_iff, not_or, not_not] at hgood
  obtain ⟨⟨hlow, hhigh, hgroup, hpriority⟩, hcls, -⟩ := hgood
  refine ⟨?_, ?_, by rw [h.group]; exact hgroup, by rw [h.priority]; exact hpriority⟩
  · rw [h.key]
    have := field8_lt b 2
    exact ⟨hlow, hhigh, by simp only [blockKey]; omega⟩
  · rw [h.lamps.2]
    by_cases h1 : upperNibble b 3 = 1
    · simp only [classField_binary h1, ite_eq_right_iff, reduceCtorEq, imp_false, not_not] at hcls
      rw [h.binary h1]; exact hcls.2.2
    by_cases h2 : upperNibble b 3 = 2
    · simp only [classField_double h2, ite_eq_right_iff, reduceCtorEq, imp_false, not_not] at hcls
      rw [h.double h2]; exact hcls.2.2
    by_cases h3 : upperNibble b 3 = 3
    · simp only [classField_analogue h3, ite_eq_right_iff, reduceCtorEq, imp_false, not_not] at hcls
      rw [h.analogue h3]; exact hcls.2
    · exact absurd (classField_other (by omega)) hcls

theorem InRange.span_pos {e : PointEntry} (h : InRange e) : 1 ≤ e.span := by
  have := h.span
  split at this <;> omega

theorem inRange_of_entryOfBlock {b : List Byte} {e : PointEntry} (h : entryOfBlock b = some e) :
    InRange e :=
  (loadedFrom_of_entryOfBlock h).inRange fun hb => by simp [entryOfBlock_eq_none.2 hb] at h

/-! ### The checks past the first (R8 to R11) -/

theorem thresholdInRange_eq_true {t : Option Nat} :
    thresholdInRange t = true ↔ ∀ n, t = some n → n ≤ 1000 := by
  cases t <;> simp [thresholdInRange]

theorem thresholdsOrdered_eq_true {t u : Option Nat} :
    thresholdsOrdered t u = true ↔ ∀ m n, t = some m → u = some n → m ≤ n := by
  cases t <;> cases u <;> simp [thresholdsOrdered]

theorem thresholdField_eq_some {b : List Byte} {i n : Nat} :
    thresholdField b i = some n ↔ Present b i ∧ field16 b i = n := by
  unfold thresholdField Present
  split
  next h => simp [h]
  next h => simp [h]

theorem thresholdInRange_field {b : List Byte} {i : Nat} :
    thresholdInRange (thresholdField b i) = true ↔ ¬ (Present b i ∧ 1000 < field16 b i) := by
  simp only [thresholdInRange_eq_true, thresholdField_eq_some]
  constructor
  · rintro h ⟨hp, hlt⟩
    have := h _ ⟨hp, rfl⟩
    omega
  · rintro h n ⟨hp, rfl⟩
    by_contra hlt
    exact h ⟨hp, by omega⟩

theorem thresholdsOrdered_fields {b : List Byte} {i j : Nat} :
    thresholdsOrdered (thresholdField b i) (thresholdField b j) = true ↔
      ¬ (Present b i ∧ Present b j ∧ field16 b j < field16 b i) := by
  simp only [thresholdsOrdered_eq_true, thresholdField_eq_some]
  constructor
  · rintro h ⟨hi, hj, hlt⟩
    have := h _ _ ⟨hi, rfl⟩ ⟨hj, rfl⟩
    omega
  · rintro h m n ⟨hi, rfl⟩ ⟨hj, rfl⟩
    by_contra hlt
    exact h ⟨hi, hj, by omega⟩

/-- With LL not above L, the low edge is the larger of the present low thresholds. -/
theorem AnalogueParams.lowEdge_spec {p : AnalogueParams} (h : thresholdsOrdered p.ll p.l = true) :
    (∀ m, (p.ll = some m ∨ p.l = some m) → ∃ x, p.lowEdge = some x ∧ m ≤ x) ∧
      ∀ x, p.lowEdge = some x → p.ll = some x ∨ p.l = some x := by
  rw [thresholdsOrdered_eq_true] at h
  unfold AnalogueParams.lowEdge
  cases hl : p.l with
  | none => exact ⟨fun m hm => ⟨m, by simpa using hm, le_rfl⟩, fun x hx => .inl hx⟩
  | some l =>
    refine ⟨?_, by simp⟩
    rintro m (hm | hm)
    · exact ⟨l, rfl, h m l hm hl⟩
    · exact ⟨l, rfl, by simp_all⟩

/-- With H not above HH, the high edge is the smaller of the present high thresholds. -/
theorem AnalogueParams.highEdge_spec {p : AnalogueParams} (h : thresholdsOrdered p.h p.hh = true) :
    (∀ m, (p.h = some m ∨ p.hh = some m) → ∃ x, p.highEdge = some x ∧ x ≤ m) ∧
      ∀ x, p.highEdge = some x → p.h = some x ∨ p.hh = some x := by
  rw [thresholdsOrdered_eq_true] at h
  unfold AnalogueParams.highEdge
  cases hh : p.h with
  | none => exact ⟨fun m hm => ⟨m, by simpa using hm, le_rfl⟩, fun x hx => .inr hx⟩
  | some high =>
    refine ⟨?_, by simp⟩
    rintro m (hm | hm)
    · exact ⟨high, rfl, by simp_all⟩
    · exact ⟨high, rfl, h high m hh hm⟩

theorem AnalogueParams.sidesApart_iff {p : AnalogueParams} : p.sidesApart = true ↔
    ∀ low high, p.lowEdge = some low → p.highEdge = some high → low + 2 * p.deadband < high := by
  unfold AnalogueParams.sidesApart
  cases p.lowEdge <;> cases p.highEdge <;> simp

/-- With each side in order, the edges of the two sides are apart unless some low and some high threshold
meet (R9). -/
theorem sidesApart_field {b : List Byte}
    (hlow : thresholdsOrdered (analogueField b).ll (analogueField b).l = true)
    (hhigh : thresholdsOrdered (analogueField b).h (analogueField b).hh = true) :
    (analogueField b).sidesApart = true ↔ ¬ SidesMeet b := by
  obtain ⟨low_max, low_held⟩ := AnalogueParams.lowEdge_spec hlow
  obtain ⟨high_min, high_held⟩ := AnalogueParams.highEdge_spec hhigh
  rw [AnalogueParams.sidesApart_iff]
  simp only [analogueField, thresholdField_eq_some] at low_max low_held high_min high_held ⊢
  constructor
  · rintro h ⟨i, j, hi, hj, hpi, hpj, hmeet⟩
    obtain ⟨x, hx, hxi⟩ := low_max (field16 b i) (by rcases hi with rfl | rfl <;> simp [hpi])
    obtain ⟨y, hy, hyj⟩ := high_min (field16 b j) (by rcases hj with rfl | rfl <;> simp [hpj])
    have := h x y hx hy
    omega
  · intro h low high hlow hhigh
    by_contra hmeet
    refine h ?_
    rcases low_held low hlow with ⟨hi, rfl⟩ | ⟨hi, rfl⟩ <;>
      rcases high_held high hhigh with ⟨hj, rfl⟩ | ⟨hj, rfl⟩ <;>
      exact ⟨_, _, by simp, by simp, hi, hj, by omega⟩

/-- R9 in the words of the block. -/
theorem acceptable_field {b : List Byte} (h : upperNibble b 3 = 3) :
    (analogueField b).acceptable = true ↔ ¬ BadAnalogue b := by
  have hhi := field16_lt b 12
  have thresholds : (∃ i, (i = 18 ∨ i = 20 ∨ i = 22 ∨ i = 24) ∧ Present b i ∧ 1000 < field16 b i) ↔
      (Present b 18 ∧ 1000 < field16 b 18) ∨ (Present b 20 ∧ 1000 < field16 b 20) ∨
      (Present b 22 ∧ 1000 < field16 b 22) ∨ (Present b 24 ∧ 1000 < field16 b 24) := by
    simp [or_and_right, exists_or]
  have hover : field16 b 16 ≤ 65535 - field16 b 12 ↔ field16 b 12 + field16 b 16 ≤ 65535 := by omega
  have hlow := thresholdsOrdered_fields (b := b) (i := 18) (j := 20)
  have hhigh := thresholdsOrdered_fields (b := b) (i := 22) (j := 24)
  unfold BadAnalogue AnalogueParams.acceptable
  rw [thresholds]
  simp only [h, true_and, Bool.and_eq_true, decide_eq_true_eq, not_or, not_le, not_lt, and_assoc]
  by_cases hll : thresholdsOrdered (analogueField b).ll (analogueField b).l = true
  · by_cases hhh : thresholdsOrdered (analogueField b).h (analogueField b).hh = true
    · rw [sidesApart_field hll hhh]
      simp only [analogueField, thresholdInRange_field, hlow, hhigh, hover, not_and, not_lt]
    · have := not_not.1 (mt hhigh.2 hhh)
      simp [hhh, this]
  · have := not_not.1 (mt hlow.2 hll)
    simp [hll, this]

theorem LoadedFrom.acceptable {b : List Byte} {e : PointEntry} (h : LoadedFrom e b)
    (hgood : ¬ BadFields b) : e.cls.acceptable = true ↔ ¬ BadAnalogue b := by
  by_cases h3 : upperNibble b 3 = 3
  · rw [h.analogue h3]
    exact acceptable_field h3
  · have : ¬ BadAnalogue b := fun hb => h3 hb.1
    simp only [this, not_false_eq_true, iff_true]
    have hcls : upperNibble b 3 = 1 ∨ upperNibble b 3 = 2 := by
      by_contra hn
      exact hgood (badFields_iff.2 (.inr (.inl (classField_other (by omega)))))
    rcases hcls with h1 | h2
    · rw [h.binary h1]; rfl
    · rw [h.double h2]; rfl

theorem PointEntry.overlaps_iff {a b : PointEntry} (ha : 1 ≤ a.span) (hb : 1 ≤ b.span) :
    a.overlaps b = true ↔ ∃ c, a.firstLamp ≤ c ∧ c < a.firstLamp + a.span ∧
      b.firstLamp ≤ c ∧ c < b.firstLamp + b.span := by
  simp only [PointEntry.overlaps, Bool.and_eq_true, decide_eq_true_eq]
  constructor
  · intro h
    exact ⟨max a.firstLamp b.firstLamp, by omega⟩
  · rintro ⟨c, h⟩
    omega

theorem not_overlaps {a b : PointEntry} (h : ¬ a.overlaps b = true) :
    a.firstLamp + a.span ≤ b.firstLamp ∨ b.firstLamp + b.span ≤ a.firstLamp := by
  simp only [PointEntry.overlaps, Bool.and_eq_true, decide_eq_true_eq] at h
  omega

/-- R10 in the words of the block. -/
theorem LoadedFrom.lampTaken {b : List Byte} {e : PointEntry} {s : State} (h : LoadedFrom e b)
    (he : 1 ≤ e.span) (hs : ∀ x ∈ s.points, 1 ≤ x.span) :
    (s.points.any fun x => x.key != e.key && x.overlaps e) = true ↔ LampTaken s b := by
  obtain ⟨hfirst, hspan⟩ := h.lamps
  simp only [List.any_eq_true, Bool.and_eq_true, bne_iff_ne, LampTaken, ← h.key, ← hfirst, ← hspan]
  constructor
  · rintro ⟨x, hx, hk, ho⟩
    exact ⟨x, hx, hk, (PointEntry.overlaps_iff (hs x hx) he).1 ho⟩
  · rintro ⟨x, hx, hk, hc⟩
    exact ⟨x, hx, hk, (PointEntry.overlaps_iff (hs x hx) he).2 hc⟩

/-- The second to sixth checks on an entry that a block describes, in the words of the block. -/
theorem LoadedFrom.loadRefusal {b : List Byte} {e : PointEntry} {s : State} (h : LoadedFrom e b)
    (hgood : ¬ BadFields b) (hs : ∀ x ∈ s.points, 1 ≤ x.span) :
    (256 < field8 b 4 + field8 b 5 → s.loadRefusal e = some .lampRange) ∧
    (field8 b 4 + field8 b 5 ≤ 256 → BadAnalogue b → s.loadRefusal e = some .badParam) ∧
    (field8 b 4 + field8 b 5 ≤ 256 → ¬ BadAnalogue b → LampTaken s b →
      s.loadRefusal e = some .lampOverlap) ∧
    (field8 b 4 + field8 b 5 ≤ 256 → ¬ BadAnalogue b → ¬ LampTaken s b → NoPlace s b →
      s.loadRefusal e = some .tableFull) ∧
    (field8 b 4 + field8 b 5 ≤ 256 → ¬ BadAnalogue b → ¬ LampTaken s b → ¬ NoPlace s b →
      NoOutstation s b → s.loadRefusal e = some .outstationFull) ∧
    (field8 b 4 + field8 b 5 ≤ 256 → ¬ BadAnalogue b → ¬ LampTaken s b → ¬ NoPlace s b →
      ¬ NoOutstation s b → s.loadRefusal e = none) := by
  have hacc := h.acceptable hgood
  have htaken := h.lampTaken (s := s) (h.inRange hgood).span_pos hs
  have hplace : NoPlace s b ↔ s.point e.key = none ∧ Config.maxPoints ≤ s.points.length := by
    rw [h.key]; rfl
  have hout : NoOutstation s b ↔ s.point e.key = none ∧ s.outstation e.key.outstation = none ∧
      Config.maxOutstations ≤ s.outstations.length := by
    rw [h.key]; rfl
  rw [← h.lamps.1, ← h.lamps.2, ← htaken, hplace, hout]
  unfold State.loadRefusal
  refine ⟨fun hr => if_pos hr, fun hr hb => ?_, fun hr hb ht => ?_, fun hr hb ht hp => ?_,
    fun hr hb ht hp ho => ?_, fun hr hb ht hp ho => ?_⟩
  all_goals rw [if_neg (by omega)]
  · rw [if_pos (by simpa using fun ha => hacc.1 ha hb)]
  all_goals rw [if_neg (by simpa using hacc.2 hb)]
  · rw [if_pos ht]
  all_goals rw [if_neg ht]
  · rw [if_pos hp]
  all_goals rw [if_neg hp]
  · rw [if_pos ho]
  · rw [if_neg ho]

/-- A load that passes its checks: the lamps are channels and meet those of no other entry, and there is
a place for a new entry and a new outstation (R8, R10, R11). -/
structure LoadAccepted (s : State) (e : PointEntry) : Prop where
  lamps : e.firstLamp + e.span ≤ 256
  apart : ∀ x ∈ s.points, x.key ≠ e.key →
    x.firstLamp + x.span ≤ e.firstLamp ∨ e.firstLamp + e.span ≤ x.firstLamp
  place : s.point e.key = none → s.points.length < 512
  outstation : s.point e.key = none → s.outstation e.key.outstation = none →
    s.outstations.length < 32

theorem loadAccepted_of_loadRefusal {s : State} {e : PointEntry} (h : s.loadRefusal e = none) :
    LoadAccepted s e := by
  unfold State.loadRefusal at h
  repeat' split at h
  case isFalse.isFalse.isFalse.isFalse.isFalse hrange _ hover hplace hout =>
    refine ⟨by omega, fun x hx hk => ?_, fun hn => ?_, fun hn ho => ?_⟩
    · refine not_overlaps fun ho => hover ?_
      exact List.any_eq_true.2 ⟨x, hx, by simp [hk, ho]⟩
    · simp only [hn, true_and, Config.maxPoints] at hplace
      omega
    · simp only [hn, ho, true_and, Config.maxOutstations] at hout
      omega
  all_goals cases h

end Sys2Proof.Machine
end

section
/-! What each operation on the tables leaves (R12 to R17, R83), and the order of the tables as an invariant of
every step. -/

namespace Sys2Proof.Machine

/-! ### Tables that stand -/

/-- The configured fields of an entry (R2, R3), with fresh dynamic fields and no alarm record. -/
def PointEntry.configured (e : PointEntry) : PointEntry := { e.standing with alarm := none }

/-- The configuration of the points, the outstations' point counts and the bindings stay as they are. -/
structure TablesStand (s t : State) : Prop where
  points : t.points.map PointEntry.configured = s.points.map PointEntry.configured
  outstations : t.outstations.map OutstationEntry.census = s.outstations.map OutstationEntry.census
  bindings : ∀ (c : Nat) (h : c < 256), t.lamps.channels[c].binding = s.lamps.channels[c].binding

theorem TablesStand.refl (s : State) : TablesStand s s := ⟨rfl, rfl, fun _ _ => rfl⟩

theorem Undisturbed.tablesStand {s t : State} (h : Undisturbed s t) : TablesStand s t := by
  refine ⟨?_, h.outstations, h.bindings⟩
  have hp := congrArg (List.map fun e : PointEntry => { e with alarm := none }) h.points
  rw [List.map_map, List.map_map] at hp
  exact hp

theorem outstation_points (s : State) (n : Nat) : (s.outstation n).map (·.points) =
    ((s.outstations.map OutstationEntry.census).find? (·.1 = n)).map (·.2) := by
  rw [List.find?_map, Option.map_map]
  rfl

/-- Lists that agree under a map agree on every relation that is a matter of the images. -/
theorem pairwise_of_map_eq {α β : Type} {f : α → β} {R : α → α → Prop} {R' : β → β → Prop}
    {l l' : List α} (h : l'.map f = l.map f) (hR : ∀ a b, R' (f a) (f b) ↔ R a b)
    (hl : l.Pairwise R) : l'.Pairwise R := by
  have hm : (l'.map f).Pairwise R' := h ▸ List.pairwise_map.2 (hl.imp fun hab => (hR _ _).2 hab)
  exact (List.pairwise_map.1 hm).imp fun hab => (hR _ _).1 hab

/-- An entry of tables that stand is configured as one that was held. -/
theorem TablesStand.mem {s t : State} (h : TablesStand s t) {e : PointEntry} (he : e ∈ t.points) :
    ∃ x ∈ s.points, e.key = x.key ∧ e.cls = x.cls ∧ e.firstLamp = x.firstLamp ∧ e.span = x.span := by
  have hmem : e.configured ∈ s.points.map PointEntry.configured :=
    h.points ▸ List.mem_map_of_mem he
  obtain ⟨x, hx, hxe⟩ := List.mem_map.1 hmem
  obtain ⟨hkey, hcls, hfirst, hspan, -⟩ := PointEntry.mk.inj hxe
  exact ⟨x, hx, hkey.symm, hcls.symm, hfirst.symm, hspan.symm⟩

theorem TablesStand.keep {s t : State} (hs : TablesStand s t) (h : TablesInOrder s) :
    TablesInOrder t where
  points := pairwise_of_map_eq (R' := fun a b : PointEntry => a.key.lt b.key = true) hs.points
    (fun _ _ => Iff.rfl) h.points
  few := by simpa using (congrArg List.length hs.points).trans_le (by simpa using h.few)
  keys e he := by
    obtain ⟨x, hx, hkey, -⟩ := hs.mem he
    rw [hkey]
    exact h.keys x hx
  outstations := pairwise_of_map_eq (R' := fun a b : Nat × Nat => a.1 < b.1) hs.outstations
    (fun _ _ => Iff.rfl) h.outstations
  fewOutstations := by
    simpa using (congrArg List.length hs.outstations).trans_le (by simpa using h.fewOutstations)
  counted n := by
    have hcount : (t.points.countP fun e => e.key.outstation = n) =
        s.points.countP fun e => e.key.outstation = n := by
      have hp := congrArg (List.countP fun e : PointEntry => e.key.outstation = n) hs.points
      rw [List.countP_map, List.countP_map] at hp
      exact hp
    rw [hcount, outstation_points, hs.outstations, ← outstation_points, h.counted]
  spans e he := by
    obtain ⟨x, hx, -, hcls, hfirst, hspan⟩ := hs.mem he
    rw [hcls, hfirst, hspan]
    exact h.spans x hx
  apart := pairwise_of_map_eq (R' := fun a b : PointEntry =>
      a.firstLamp + a.span ≤ b.firstLamp ∨ b.firstLamp + b.span ≤ a.firstLamp) hs.points
    (fun _ _ => Iff.rfl) h.apart
  bound c hc := by
    rw [hs.bindings c hc, h.bound c hc]
    have find (l : List PointEntry) : (l.find? fun e => e.firstLamp ≤ c ∧ c < e.firstLamp + e.span).map
        (·.key) = ((l.map PointEntry.configured).find? fun e =>
          e.firstLamp ≤ c ∧ c < e.firstLamp + e.span).map (·.key) := by
      rw [List.find?_map, Option.map_map]
      rfl
    rw [find s.points, find t.points, hs.points]

/-! ### The alarm side leaves the tables standing -/

theorem transition_tablesStand (s : State) (e : PointEntry) (old new : AlarmRecord) (t : Transition)
    (c : Option Cause) : TablesStand s (s.transition e old new t c) := by
  refine ⟨?_, rfl, fun _ _ => rfl⟩
  change (modifyPoint e.key _ s.points).map _ = _
  simp only [modifyPoint, List.map_map]
  refine List.map_congr_left fun x _ => ?_
  by_cases h : x.key = e.key <;> simp [h, PointEntry.configured, PointEntry.standing]

theorem evaluatePoint_tablesStand (s : State) (k : Key) : TablesStand s (s.evaluatePoint k) := by
  unfold State.evaluatePoint
  repeat' split
  · rw [applyResult_cases]
    split
    · exact .refl s
    · exact transition_tablesStand ..
  · exact .refl s
  · exact .refl s

theorem acknowledge_tablesStand (s : State) (k : Key) : TablesStand s (s.acknowledge k) := by
  unfold State.acknowledge
  repeat' split
  · exact transition_tablesStand ..
  all_goals exact .refl s

theorem setGroup_tablesStand (s : State) (g : Nat) (on : Bool) : TablesStand s (s.setGroup g on) := by
  have h := settleLamps_undisturbed (s.modifyGroup g (Group.enable on))
  exact ⟨h.tablesStand.points, h.outstations, h.bindings⟩

/-! ### Bindings made and dropped (R5, R90) -/

/-- The field of a channel that does not follow from the rest of the state. -/
theorem Channel.kept_binding (ch : Channel) : ch.kept.binding = ch.binding := rfl

theorem bind_kept (s : State) (e : PointEntry) (c : Nat) (hc : c < 256) :
    (s.bind e).lamps.channels[c].kept = { s.lamps.channels[c].kept with
      binding := if e.owns c then some e.key
        else if s.lamps.channels[c].binding = some e.key then none
        else s.lamps.channels[c].binding } := by
  rw [State.bind, mapChannels_channel _ _ _ hc]
  repeat' split
  all_goals rfl

theorem unbind_kept (s : State) (k : Key) (c : Nat) (hc : c < 256) :
    (s.unbind k).lamps.channels[c].kept = { s.lamps.channels[c].kept with
      binding := if s.lamps.channels[c].binding = some k then none
        else s.lamps.channels[c].binding } := by
  rw [State.unbind, mapChannels_channel _ _ _ hc]
  split <;> rfl

/-! ### A new entry (R12) -/

/-- The Point Table has no say in what an outstation gains. -/
theorem gainPoint_withPoints (s : State) (points : List PointEntry) (n : Nat) :
    State.gainPoint n { s with points := points } =
      { s with points := points, outstations := (s.gainPoint n).outstations } := by
  have ho : State.outstation { s with points := points } n = s.outstation n := rfl
  unfold State.gainPoint
  rw [ho]
  split <;> rfl

theorem insertEntry_eq (s : State) (e : PointEntry) : s.insertEntry e = (State.bind e { s with
    points := insertPoint e s.points
    outstations := (s.gainPoint e.key.outstation).outstations }).settleLamps := by
  unfold State.insertEntry
  rw [gainPoint_withPoints]

theorem insertEntry_frame (s : State) (e : PointEntry) : s.insertEntry e = { s with
    points := insertPoint e s.points, outstations := (s.gainPoint e.key.outstation).outstations
    lamps := (s.insertEntry e).lamps } := by
  rw [insertEntry_eq]
  rfl

theorem insertEntry_points (s : State) (e : PointEntry) :
    (s.insertEntry e).points = insertPoint e s.points := by
  rw [insertEntry_frame]

theorem insertEntry_outstations (s : State) (e : PointEntry) :
    (s.insertEntry e).outstations = (s.gainPoint e.key.outstation).outstations := by
  rw [insertEntry_frame]

theorem insertEntry_outstation (s : State) (e : PointEntry) (n : Nat) :
    (s.insertEntry e).outstation n = (s.gainPoint e.key.outstation).outstation n := by
  unfold State.outstation
  rw [insertEntry_outstations]

theorem insertEntry_lamps (s : State) (e : PointEntry) : (s.insertEntry e).lamps =
    { s.lamps with channels := (s.insertEntry e).lamps.channels } := by
  rw [insertEntry_eq]
  rfl

theorem insertEntry_kept (s : State) (e : PointEntry) (c : Nat) (hc : c < 256) :
    (s.insertEntry e).lamps.channels[c].kept = { s.lamps.channels[c].kept with
      binding := if e.owns c then some e.key
        else if s.lamps.channels[c].binding = some e.key then none
        else s.lamps.channels[c].binding } := by
  rw [insertEntry_eq, settleLamps_kept _ _ hc, bind_kept _ _ _ hc]

/-! ### An entry replaced (R14) -/

theorem retire_points (s : State) (e : PointEntry) : (s.retire e).points = s.points := by
  unfold State.retire
  repeat' split
  all_goals rfl

theorem replaceEntry_frame (s : State) (old e : PointEntry) : s.replaceEntry old e = { s with
    points := modifyPoint e.key (fun _ => e) s.points, alarms := (s.retire old).alarms
    groups := (s.retire old).groups, reports := (s.retire old).reports
    lamps := (s.replaceEntry old e).lamps } := by
  have h := retire_alarmSide s old
  unfold State.replaceEntry
  rw [h, retire_points]
  rfl

theorem replaceEntry_points (s : State) (old e : PointEntry) :
    (s.replaceEntry old e).points = modifyPoint e.key (fun _ => e) s.points := by
  rw [replaceEntry_frame]

theorem replaceEntry_outstations (s : State) (old e : PointEntry) :
    (s.replaceEntry old e).outstations = s.outstations := by
  rw [replaceEntry_frame]

theorem replaceEntry_lamps (s : State) (old e : PointEntry) : (s.replaceEntry old e).lamps =
    { s.lamps with channels := (s.replaceEntry old e).lamps.channels } := by
  have h : (s.replaceEntry old e).lamps = { (s.retire old).lamps with
    channels := (s.replaceEntry old e).lamps.channels } := rfl
  rw [h, (retire_alarmSide s old).lamps]

theorem replaceEntry_kept (s : State) (old e : PointEntry) (c : Nat) (hc : c < 256) :
    (s.replaceEntry old e).lamps.channels[c].kept = { s.lamps.channels[c].kept with
      binding := if e.owns c then some e.key
        else if s.lamps.channels[c].binding = some e.key then none
        else s.lamps.channels[c].binding } := by
  unfold State.replaceEntry
  rw [settleLamps_kept _ _ hc, bind_kept _ _ _ hc]
  simp only [(retire_alarmSide s old).lamps]

/-! ### An entry dropped (R16) -/

theorem dropEntry_frame (s : State) (e : PointEntry) : s.dropEntry e = { s with
    points := s.points.filter fun x => x.key != e.key
    outstations := (s.losePoint e.key.outstation).outstations, alarms := (s.retire e).alarms
    groups := (s.retire e).groups, reports := (s.retire e).reports
    lamps := (s.dropEntry e).lamps } := by
  have h := retire_alarmSide s e
  unfold State.dropEntry
  rw [h, retire_points]
  rfl

theorem dropEntry_points (s : State) (e : PointEntry) :
    (s.dropEntry e).points = s.points.filter fun x => x.key != e.key := by
  rw [dropEntry_frame]

theorem dropEntry_outstations (s : State) (e : PointEntry) :
    (s.dropEntry e).outstations = (s.losePoint e.key.outstation).outstations := by
  rw [dropEntry_frame]

theorem dropEntry_outstation (s : State) (e : PointEntry) (n : Nat) :
    (s.dropEntry e).outstation n = (s.losePoint e.key.outstation).outstation n := by
  unfold State.outstation
  rw [dropEntry_outstations]

theorem dropEntry_lamps (s : State) (e : PointEntry) : (s.dropEntry e).lamps =
    { s.lamps with channels := (s.dropEntry e).lamps.channels } := by
  have h : (s.dropEntry e).lamps = { (s.retire e).lamps with
    channels := (s.dropEntry e).lamps.channels } := rfl
  rw [h, (retire_alarmSide s e).lamps]

theorem dropEntry_kept (s : State) (e : PointEntry) (c : Nat) (hc : c < 256) :
    (s.dropEntry e).lamps.channels[c].kept = { s.lamps.channels[c].kept with
      binding := if s.lamps.channels[c].binding = some e.key then none
        else s.lamps.channels[c].binding } := by
  unfold State.dropEntry
  rw [settleLamps_kept _ _ hc]
  change ((s.retire e).unbind e.key).lamps.channels[c].kept = _
  rw [unbind_kept _ _ _ hc]
  simp only [(retire_alarmSide s e).lamps]

/-! ### TABLE CLEAR (R17) and RESTART (R62, R113) -/

theorem clearTable_kept (s : State) (c : Nat) (hc : c < 256) :
    s.clearTable.lamps.channels[c].kept = { s.lamps.channels[c].kept with binding := none } := by
  unfold State.clearTable
  rw [settleLamps_kept _ _ hc]
  change (State.unbindAll _).lamps.channels[c].kept = _
  rw [State.unbindAll, mapChannels_channel _ _ _ hc]
  rfl

/-- RESTART before its last steps, the Condition Set and the STARTED record. -/
def State.restartBlocks (s : State) : State :=
  s.emptyQueues.restartPort.restartTables.restartTime.restartLamps.restartPanel.settleLamps

/-- RESTART as its blocks, which the Condition Set and the STARTED record leave undisturbed. -/
theorem restartAll_undisturbed (s : State) : Undisturbed s.restartBlocks s.restartAll := by
  have h : Undisturbed s.restartBlocks s.restartBlocks.restartConditions :=
    .trans (t := { s.restartBlocks with reports := { s.restartBlocks.reports with latched := 0, lost := 0 } })
      (.of_eq rfl rfl rfl rfl rfl) (relatch_undisturbed _ _)
  exact h.trans (record_undisturbed _ _)

theorem restartBlocks_kept (s : State) (c : Nat) (hc : c < 256) :
    s.restartBlocks.lamps.channels[c].kept =
      { Channel.reset with binding := ownerKey (s.points.map PointEntry.fresh) c } := by
  unfold State.restartBlocks
  rw [settleLamps_kept _ _ hc]
  change (State.restartLamps _).lamps.channels[c].kept = _
  rw [State.restartLamps, State.rebind, mapChannels_channel _ _ _ hc]
  simp only [Table.mapIdx_getElem]
  have howns : (fun e : PointEntry => e.owns c) =
      fun e => decide (e.firstLamp ≤ c ∧ c < e.firstLamp + e.span) := by
    funext e; simp [PointEntry.owns]
  simp only [howns]
  rfl

/-- RESTART keeps the configuration, so it derives the bindings that stood (R62, R113). -/
theorem restartBlocks_tablesStand {s : State} (h : TablesInOrder s) :
    TablesStand s s.restartBlocks := by
  have hp : s.restartBlocks.points = s.points.map PointEntry.fresh := rfl
  have ho : s.restartBlocks.outstations = s.outstations.map OutstationEntry.restart := rfl
  refine ⟨?_, ?_, fun c hc => ?_⟩
  · rw [hp, List.map_map]; rfl
  · rw [ho, List.map_map]; rfl
  · rw [← Channel.kept_binding, restartBlocks_kept _ _ hc, h.bound c hc, ownerKey, List.find?_map,
      Option.map_map]
    rfl

/-! ### The order of the tables is kept -/

/-- Empty tables with no binding are in order. -/
theorem tablesInOrder_empty {s : State} (hp : s.points = []) (ho : s.outstations = [])
    (hb : ∀ (c : Nat) (h : c < 256), s.lamps.channels[c].binding = none) : TablesInOrder s where
  points := by simp [hp]
  few := by simp [hp]
  keys := by simp [hp]
  outstations := by simp [ho]
  fewOutstations := by simp [ho]
  counted n := by simp [State.outstation, hp, ho]
  spans := by simp [hp]
  apart := by simp [hp]
  bound c hc := by simp [hb c hc, hp]

/-- A table that holds an accepted entry and the entries of other keys has its lamps apart (R10). -/
theorem lampsApart_load {s : State} {e : PointEntry} {l : List PointEntry} (h : TablesInOrder s)
    (ha : LoadAccepted s e) (hmem : ∀ x, x ∈ l ↔ x = e ∨ (x ∈ s.points ∧ x.key ≠ e.key)) :
    LampsApart l := by
  intro x hx y hy hne
  rcases (hmem x).1 hx with rfl | ⟨hx, hxk⟩ <;> rcases (hmem y).1 hy with rfl | ⟨hy, hyk⟩
  · exact absurd rfl hne
  · exact (ha.apart y hy hyk).symm
  · exact ha.apart x hx hxk
  · exact h.lampsApart x hx y hy hne

/-- The bindings of a load name the owners of the channels in the new table (R5, R14). -/
theorem ownerKey_load {s : State} {e : PointEntry} {l : List PointEntry} (h : TablesInOrder s)
    (ha : LoadAccepted s e) (hmem : ∀ x, x ∈ l ↔ x = e ∨ (x ∈ s.points ∧ x.key ≠ e.key))
    (c : Nat) (hc : c < 256) :
    (if e.owns c then some e.key
      else if s.lamps.channels[c].binding = some e.key then none
      else s.lamps.channels[c].binding) = ownerKey l c := by
  have hapart := lampsApart_load h ha hmem
  by_cases he : e.owns c = true
  · rw [if_pos he, ownerKey_of_mem hapart ((hmem e).2 (.inl rfl)) he]
  rw [if_neg he]
  ext k
  rw [ownerKey_eq_some hapart]
  constructor
  · intro hk
    split at hk
    · cases hk
    next hne =>
      obtain ⟨x, hx, rfl, hxc⟩ := (h.binding_eq_some hc).1 hk
      exact ⟨x, (hmem x).2 (.inr ⟨hx, fun hxe => hne (hxe ▸ hk)⟩), rfl, hxc⟩
  · rintro ⟨x, hx, rfl, hxc⟩
    rcases (hmem x).1 hx with rfl | ⟨hx, hxe⟩
    · exact absurd hxc he
    · have hb := (h.binding_eq_some hc).2 ⟨x, hx, rfl, hxc⟩
      rw [if_neg (by rw [hb]; simpa using hxe), hb]

/-- An accepted load whose outstations count the points of the new table keeps the tables in order. -/
theorem tablesInOrder_load {s t : State} {e : PointEntry} (h : TablesInOrder s) (he : InRange e)
    (ha : LoadAccepted s e) (hsorted : t.points.Pairwise fun a b => a.key.lt b.key)
    (hmem : ∀ x, x ∈ t.points ↔ x = e ∨ (x ∈ s.points ∧ x.key ≠ e.key))
    (hfew : t.points.length ≤ 512) (hrise : NumbersRise t.outstations)
    (hfewOut : t.outstations.length ≤ 32)
    (hcounted : ∀ n, (t.outstation n).map (·.points) =
      if (t.points.countP fun e => e.key.outstation = n) = 0 then none
      else some (t.points.countP fun e => e.key.outstation = n))
    (hbind : ∀ (c : Nat) (hc : c < 256), t.lamps.channels[c].binding =
      if e.owns c then some e.key
      else if s.lamps.channels[c].binding = some e.key then none
      else s.lamps.channels[c].binding) : TablesInOrder t where
  points := hsorted
  few := hfew
  keys x hx := by
    rcases (hmem x).1 hx with rfl | ⟨hx, -⟩
    · exact he.key
    · exact h.keys x hx
  outstations := hrise
  fewOutstations := hfewOut
  counted := hcounted
  spans x hx := by
    rcases (hmem x).1 hx with rfl | ⟨hx, -⟩
    · exact ⟨ha.lamps, he.span⟩
    · exact h.spans x hx
  apart := (lampsApart_iff (KeysRise.distinct (s := t) hsorted)).1 (lampsApart_load h ha hmem)
  bound c hc := (hbind c hc).trans (ownerKey_load h ha hmem c hc)

theorem tablesInOrder_insertEntry {s : State} {e : PointEntry} (h : TablesInOrder s)
    (he : InRange e) (ha : LoadAccepted s e) (hnone : s.point e.key = none) :
    TablesInOrder (s.insertEntry e) := by
  have hfresh : ∀ x ∈ s.points, x.key ≠ e.key := point_eq_none.1 hnone
  have hlen := (insertPoint_perm e s.points).length_eq
  have hplace := ha.place hnone
  refine tablesInOrder_load h he ha ?_ ?_ ?_ ?_ ?_ ?_ fun c hc => ?_
  · rw [insertEntry_points]
    exact insertPoint_sorted h.points hfresh
  · intro x
    rw [insertEntry_points, mem_insertPoint]
    exact or_congr_right ⟨fun hx => ⟨hx, hfresh x hx⟩, And.left⟩
  · rw [insertEntry_points, hlen, List.length_cons]
    omega
  · rw [insertEntry_outstations]
    exact gainPoint_rises h.outstations _
  · rw [insertEntry_outstations]
    unfold State.gainPoint
    split
    · simpa [modifyOutstation] using h.fewOutstations
    next hout =>
      have := (insertOutstation_perm (.create e.key.outstation) s.outstations).length_eq
      have := ha.outstation hnone hout
      simp_all
  · intro n
    have hcount := (insertPoint_perm e s.points).countP_eq fun x => decide (x.key.outstation = n)
    rw [insertEntry_outstation, gainPoint_outstation h.outstations, insertEntry_points, hcount,
      List.countP_cons]
    have hn := h.counted n
    by_cases hne : n = e.key.outstation
    · rw [if_pos hne, ← hne]
      cases ho : s.outstation n with
      | none => rw [ho] at hn; simp_all [OutstationEntry.create]
      | some o => rw [ho] at hn; simp_all [OutstationEntry.gain]
    · have : ¬ e.key.outstation = n := fun h => hne h.symm
      rw [if_neg hne, hn]
      simp [this]
  · rw [← Channel.kept_binding, insertEntry_kept _ _ _ hc]

theorem tablesInOrder_replaceEntry {s : State} {old e : PointEntry} (h : TablesInOrder s)
    (he : InRange e) (ha : LoadAccepted s e) (hold : s.point e.key = some old) :
    TablesInOrder (s.replaceEntry old e) := by
  have hkeys : (s.replaceEntry old e).points.map (·.key) = s.points.map (·.key) := by
    rw [replaceEntry_points, modifyPoint, List.map_map]
    refine List.map_congr_left fun x _ => ?_
    by_cases hx : x.key = e.key <;> simp [hx]
  refine tablesInOrder_load h he ha ?_ ?_ ?_ ?_ ?_ ?_ fun c hc => ?_
  · exact (sorted_congr hkeys).2 h.points
  · intro x
    rw [replaceEntry_points]
    exact mem_modifyPoint_const (point_mem hold) (point_key hold)
  · simpa using (congrArg List.length hkeys).trans_le (by simpa using h.few)
  · rw [replaceEntry_outstations]
    exact h.outstations
  · rw [replaceEntry_outstations]
    exact h.fewOutstations
  · intro n
    have hcount : ((s.replaceEntry old e).points.countP fun x => x.key.outstation = n) =
        s.points.countP fun x => x.key.outstation = n := by
      have hk := congrArg (List.countP fun k : Key => k.outstation = n) hkeys
      rw [List.countP_map, List.countP_map] at hk
      exact hk
    rw [State.outstation, replaceEntry_outstations, hcount]
    exact h.counted n
  · rw [← Channel.kept_binding, replaceEntry_kept _ _ _ _ hc]

theorem tablesInOrder_dropEntry {s : State} {e : PointEntry} (h : TablesInOrder s)
    (he : e ∈ s.points) : TablesInOrder (s.dropEntry e) where
  points := by rw [dropEntry_points]; exact h.points.filter _
  few := by rw [dropEntry_points]; exact (List.length_filter_le _ _).trans h.few
  keys x hx := by rw [dropEntry_points] at hx; exact h.keys x (List.mem_of_mem_filter hx)
  outstations := by rw [dropEntry_outstations]; exact losePoint_rises h.outstations _
  fewOutstations := by
    rw [dropEntry_outstations]; exact (length_losePoint_le s _).trans h.fewOutstations
  counted n := by
    have hcount := countP_filter_key h.distinct he fun x => decide (x.key.outstation = n)
    have hn := h.counted n
    rw [dropEntry_outstation, losePoint_outstation h.outstations, dropEntry_points]
    by_cases hne : n = e.key.outstation
    · have hone : one (decide (e.key.outstation = n)) = 1 := by simp [one, hne]
      rw [hone] at hcount
      rw [if_pos hne, ← hne]
      cases ho : s.outstation n with
      | none => rw [ho] at hn; simp_all
      | some o =>
        rw [ho, ← hcount] at hn
        simp only [Option.map_some, Nat.add_eq_zero_iff, one_ne_zero, and_false, if_false,
          Option.some.injEq] at hn
        simp only [Option.bind_some, OutstationEntry.lose, hn]
        by_cases hlast : ((s.points.filter fun x => x.key != e.key).countP
            fun x => decide (x.key.outstation = n)) = 0
        · simp only [hlast, le_refl, if_true, Option.map_none]
        · rw [if_neg (by omega), if_neg hlast]
          rfl
    · have hone : one (decide (e.key.outstation = n)) = 0 := by
        have : ¬ e.key.outstation = n := fun h => hne h.symm
        simp [one, this]
      rw [hone, Nat.add_zero] at hcount
      rw [if_neg hne, hn, hcount]
  spans x hx := by rw [dropEntry_points] at hx; exact h.spans x (List.mem_of_mem_filter hx)
  apart := by rw [dropEntry_points]; exact h.apart.filter _
  bound c hc := by
    have hmem (x : PointEntry) : x ∈ (s.dropEntry e).points ↔ x ∈ s.points ∧ x.key ≠ e.key := by
      rw [dropEntry_points]; simp
    have hapart : LampsApart (s.dropEntry e).points := fun x hx y hy =>
      h.lampsApart x ((hmem x).1 hx).1 y ((hmem y).1 hy).1
    rw [← Channel.kept_binding, dropEntry_kept _ _ _ hc]
    ext k
    refine Iff.trans ?_ (ownerKey_eq_some hapart).symm
    simp only [hmem]
    constructor
    · intro hk
      split at hk
      · cases hk
      next hne =>
        obtain ⟨x, hx, rfl, hxc⟩ := (h.binding_eq_some hc).1 hk
        exact ⟨x, ⟨hx, fun hxe => hne (hxe ▸ hk)⟩, rfl, hxc⟩
    · rintro ⟨x, ⟨hx, hxe⟩, rfl, hxc⟩
      have hb := (h.binding_eq_some hc).2 ⟨x, hx, rfl, hxc⟩
      rw [if_neg (by rw [hb]; simpa using hxe), hb]

/-- The order of the tables is kept by every operation that changes them. -/
theorem tablesInOrder_kept : KeptByChanges TablesInOrder where
  undisturbed hu h := hu.tablesStand.keep h
  evaluatePoint s k h := (evaluatePoint_tablesStand s k).keep h
  acknowledge s k h := (acknowledge_tablesStand s k).keep h
  silenceHorn s h := TablesStand.keep (s := s) ⟨rfl, rfl, fun _ _ => rfl⟩ h
  setHornEnables s _ _ _ h := TablesStand.keep (s := s) ⟨rfl, rfl, fun _ _ => rfl⟩ h
  setGroup s g on h := (setGroup_tablesStand s g on).keep h
  loadEntry s b e hb hr h := by
    have he := inRange_of_entryOfBlock hb
    have ha := loadAccepted_of_loadRefusal hr
    unfold State.loadEntry
    split
    next old hold => exact tablesInOrder_replaceEntry h he ha hold
    next hnone => exact tablesInOrder_insertEntry h he ha hnone
  dropEntry s k e he h := tablesInOrder_dropEntry h (point_mem he)
  clearTable s h := tablesInOrder_empty rfl rfl fun c hc => by
    rw [← Channel.kept_binding, clearTable_kept _ _ hc]
  restartAll s h :=
    (restartAll_undisturbed s).tablesStand.keep ((restartBlocks_tablesStand h).keep h)
  hardwareReset s source straps := tablesInOrder_empty rfl rfl fun c hc => by
    simp [State.hardwareReset, State.afterReset, Channel.reset]

/-- Settles O57: every change a step can make to the tables keeps their order. -/
theorem everyStepKeepsTheTablesInOrder : Obligations.EveryStepKeepsTheTablesInOrder :=
  fun _ _ h hstep => tablesInOrder_kept.step h hstep

end Sys2Proof.Machine
end

section
/-! The agreement of the alarm records with the counts, the horn and the first-up holders, as an invariant of
every step (R63, R69, R71, R74, R75). -/

namespace Sys2Proof.Machine

/-! ### What leaves the alarm side undisturbed keeps the agreement -/

/-- An entry of undisturbed tables stands in the alarm sequence as one that was held. -/
theorem Undisturbed.mem {s t : State} (h : Undisturbed s t) {e : PointEntry} (he : e ∈ t.points) :
    ∃ x ∈ s.points, e.key = x.key ∧ e.group = x.group ∧ e.priority = x.priority ∧
      e.alarm = x.alarm := by
  have hmem : e.standing ∈ s.points.map PointEntry.standing := h.points ▸ List.mem_map_of_mem he
  obtain ⟨x, hx, hxe⟩ := List.mem_map.1 hmem
  exact ⟨x, hx, (congrArg (·.key) hxe).symm, (congrArg (·.group) hxe).symm,
    (congrArg (·.priority) hxe).symm, (congrArg (·.alarm) hxe).symm⟩

theorem Undisturbed.symm {s t : State} (h : Undisturbed s t) : Undisturbed t s :=
  ⟨h.points.symm, h.outstations.symm, h.alarms.symm, h.groups.symm, fun c hc => (h.bindings c hc).symm⟩

theorem Undisturbed.countP {s t : State} (h : Undisturbed s t) {p : PointEntry → Bool}
    (hp : ∀ e, p e.standing = p e) : t.points.countP p = s.points.countP p := by
  have hc := congrArg (List.countP p) h.points
  have hcomp : p ∘ PointEntry.standing = p := funext hp
  rwa [List.countP_map, List.countP_map, hcomp] at hc

theorem alarmState_congr {e x : PointEntry} (h : e.alarm = x.alarm) : e.alarmState = x.alarmState := by
  unfold PointEntry.alarmState
  rw [h]

theorem AlarmsAgree.undisturbed {s t : State} (h : AlarmsAgree s) (hu : Undisturbed s t) :
    AlarmsAgree t where
  presence e he := by
    obtain ⟨x, hx, -, -, hpriority, halarm⟩ := hu.mem he
    rw [hpriority, halarm]
    exact h.presence x hx
  cause e he a ha := by
    obtain ⟨x, hx, -, -, -, halarm⟩ := hu.mem he
    exact h.cause x hx a (halarm ▸ ha)
  unack := by rw [hu.alarms, h.unack, hu.countP fun _ => rfl]
  ringback := by rw [hu.alarms, h.ringback, hu.countP fun _ => rfl]
  hornCount := by rw [hu.alarms, h.hornCount, hu.countP fun _ => rfl]
  horn := by rw [hu.alarms]; exact h.horn
  holder g hg k hk := by
    simp only [hu.groups] at hk ⊢
    obtain ⟨hfirst, x, hx, hxk, hxg, hxs⟩ := h.holder g hg k hk
    obtain ⟨e, he, hkey, hgroup, -, halarm⟩ := hu.symm.mem hx
    exact ⟨hfirst, e, he, hkey.symm.trans hxk, hgroup.symm.trans hxg,
      alarmState_congr halarm ▸ hxs⟩

/-! ### A transition (R68) -/

theorem one_le_countP {l : List PointEntry} {e : PointEntry} (he : e ∈ l) (p : PointEntry → Bool) :
    one (p e) ≤ l.countP p := by
  unfold one
  split
  next hp => exact List.countP_pos_iff.2 ⟨e, he, hp⟩
  next => exact Nat.zero_le _

theorem AlarmUnit.sound_eq (a : AlarmUnit) (priority : Nat) :
    a.sound priority = { a with horn := (a.sound priority).horn } := by
  unfold AlarmUnit.sound
  split <;> rfl

theorem AlarmUnit.quiet_eq (a : AlarmUnit) : a.quiet = { a with horn := a.quiet.horn } := by
  unfold AlarmUnit.quiet
  split <;> rfl

theorem AlarmUnit.quiet_horn (a : AlarmUnit) (h : a.hornCount = 0) : a.quiet.horn = .off := by
  simp [AlarmUnit.quiet, h]

theorem transition_alarms (s : State) (e : PointEntry) (old new : AlarmRecord) (t : Transition)
    (c : Option Cause) : (s.transition e old new t c).alarms =
      if t = .raised then (s.alarms.move e.priority old.state new.state).sound e.priority
      else (s.alarms.move e.priority old.state new.state).quiet := rfl

/-- The counts after a transition are those of R69, whatever the horn does. -/
theorem transition_counts (s : State) (e : PointEntry) (old new : AlarmRecord) (t : Transition)
    (c : Option Cause) : ∃ horn, (s.transition e old new t c).alarms =
      { s.alarms.move e.priority old.state new.state with horn := horn } := by
  rw [transition_alarms]
  split
  · exact ⟨_, AlarmUnit.sound_eq _ _⟩
  · exact ⟨_, AlarmUnit.quiet_eq _⟩

theorem transition_points (s : State) (e : PointEntry) (old new : AlarmRecord) (t : Transition)
    (c : Option Cause) : (s.transition e old new t c).points =
      modifyPoint e.key (fun x => { x with alarm := some new }) s.points := rfl

theorem transition_group (s : State) (e : PointEntry) (old new : AlarmRecord) (t : Transition)
    (c : Option Cause) (g : Nat) (hg : g < 16) : (s.transition e old new t c).groups[g] =
      if g + 1 = e.group then s.groups[g].follow e.key t new.state else s.groups[g] :=
  modifyGroup_group _ _ _ g hg

theorem Group.follow_firstUp (g : Group) (k : Key) (t : Transition) (new : AlarmState) :
    (g.follow k t new).firstUp = g.firstUp := by
  unfold Group.follow
  repeat' split
  all_goals rfl

/-- A holder after a transition is the raised entry, or the holder that stood and has not gone to NORMAL
(R74, R75). -/
theorem Group.follow_holder {g : Group} {k k' : Key} {t : Transition} {new : AlarmState}
    (h : (g.follow k t new).holder = some k') :
    (t = .raised ∧ g.firstUp = true ∧ k' = k) ∨ (g.holder = some k' ∧ (k' = k → new ≠ .normal)) := by
  unfold Group.follow at h
  split at h
  next hr =>
    obtain ⟨hraised, hfirst, -⟩ := hr
    exact .inl ⟨hraised, hfirst, (Option.some.inj h).symm⟩
  · split at h
    · cases h
    next hn => exact .inr ⟨h, fun hk hnew => hn ⟨hnew, hk ▸ h⟩⟩

/-- An entry of the table keeps its place with a new alarm record, and so do the others with theirs. -/
theorem mem_withAlarm {l : List PointEntry} (hd : KeysDistinct l) {e : PointEntry} (he : e ∈ l)
    (new : AlarmRecord) {x : PointEntry} :
    x ∈ modifyPoint e.key (fun x => { x with alarm := some new }) l ↔
      x = { e with alarm := some new } ∨ (x ∈ l ∧ x.key ≠ e.key) := by
  simp only [modifyPoint, List.mem_map]
  constructor
  · rintro ⟨y, hy, rfl⟩
    by_cases hye : y.key = e.key
    · rw [if_pos hye, hd.eq hy he hye]
      exact .inl rfl
    · rw [if_neg hye]
      exact .inr ⟨hy, hye⟩
  · rintro (rfl | ⟨hx, hxe⟩)
    · exact ⟨e, he, if_pos rfl⟩
    · exact ⟨x, hx, if_neg hxe⟩

theorem alarmState_of_some {e : PointEntry} {a : AlarmRecord} (h : e.alarm = some a) :
    e.alarmState = a.state := by
  unfold PointEntry.alarmState
  rw [h]

theorem alarmState_withAlarm (e : PointEntry) (a : AlarmRecord) :
    PointEntry.alarmState { e with alarm := some a } = a.state := rfl

namespace AlarmsAgree

section

variable {s : State} (h : AlarmsAgree s) (hd : KeysDistinct s.points) {e : PointEntry}
  (he : e ∈ s.points) {old new : AlarmRecord} (hold : e.alarm = some old) {t : Transition}
  (hraised : t = .raised → new.state = .unack) (c : Option Cause)
include h hd he hold

/-- The counts stay those of the entries' states (R69). -/
theorem transition_counted :
    (s.transition e old new t c).alarms.unack =
      (s.transition e old new t c).points.countP (fun e => e.alarmState == .unack) ∧
    (s.transition e old new t c).alarms.ringback =
      (s.transition e old new t c).points.countP (fun e => e.alarmState == .rtnUnack) ∧
    (s.transition e old new t c).alarms.hornCount =
      (s.transition e old new t c).points.countP fun x =>
        x.alarmState == .unack && (s.transition e old new t c).alarms.hornOn x.priority := by
  obtain ⟨horn, halarms⟩ := transition_counts s e old new t c
  have hon : (s.transition e old new t c).alarms.hornOn = s.alarms.hornOn := by
    rw [halarms]; rfl
  have henabled := congrFun (congrFun AlarmUnit.hornOn_eq s.alarms) e.priority
  have hcount (p : PointEntry → Bool) :=
    countP_modifyPoint hd he (fun x => { x with alarm := some new }) p
  have hunack := hcount fun x => x.alarmState == .unack
  have hringback := hcount fun x => x.alarmState == .rtnUnack
  have hhorn := hcount fun x => x.alarmState == .unack && s.alarms.hornOn x.priority
  simp only [alarmState_of_some hold, alarmState_withAlarm] at hunack hringback hhorn
  rw [hon, halarms, transition_points]
  simp only [AlarmUnit.move, h.unack, h.ringback, h.hornCount, ← henabled,
    Bool.and_comm (s.alarms.hornOn _)]
  omega

include hraised

/-- The horn stays OFF at a horn count of 0 (R71). -/
theorem transition_horn (hzero : (s.transition e old new t c).alarms.hornCount = 0) :
    (s.transition e old new t c).alarms.horn = .off := by
  obtain ⟨horn, halarms⟩ := transition_counts s e old new t c
  have hcounted := (h.transition_counted hd he hold (new := new) (t := t) c).2.2
  rw [transition_alarms]
  split
  next ht =>
    have hmem : { e with alarm := some new } ∈ (s.transition e old new t c).points :=
      (mem_withAlarm hd he new).2 (.inl rfl)
    have hsilent : s.alarms.enabled e.priority = false := by
      have hone := one_le_countP hmem fun x =>
        x.alarmState == .unack && (s.transition e old new t c).alarms.hornOn x.priority
      rw [← hcounted, hzero, alarmState_withAlarm, hraised ht, halarms, AlarmUnit.hornOn_eq] at hone
      simpa [one, AlarmUnit.move, AlarmUnit.enabled] using hone
    have hsame : (s.alarms.move e.priority old.state new.state).sound e.priority =
        s.alarms.move e.priority old.state new.state :=
      if_neg (show ¬ s.alarms.enabled e.priority = true by simpa using hsilent)
    rw [hsame]
    refine h.horn ?_
    rw [halarms] at hzero
    simpa [AlarmUnit.move, hsilent, one] using hzero
  next =>
    rw [halarms] at hzero
    exact AlarmUnit.quiet_horn _ hzero

/-- A holder stays an entry of its group that is not in NORMAL, in a group with first-up on (R74, R75). -/
theorem transition_holder (g : Nat) (hg : g < 16) (k : Key)
    (hk : (s.transition e old new t c).groups[g].holder = some k) :
    (s.transition e old new t c).groups[g].firstUp = true ∧
      ∃ x ∈ (s.transition e old new t c).points,
        x.key = k ∧ x.group = g + 1 ∧ x.alarmState ≠ .normal := by
  have hmem (x : PointEntry) : x ∈ (s.transition e old new t c).points ↔ _ :=
    mem_withAlarm hd he new
  rw [transition_group] at hk ⊢
  have held (hk : s.groups[g].holder = some k) (hnew : k = e.key → new.state ≠ .normal) :
      s.groups[g].firstUp = true ∧ ∃ x ∈ (s.transition e old new t c).points,
        x.key = k ∧ x.group = g + 1 ∧ x.alarmState ≠ .normal := by
    obtain ⟨hfirst, x, hx, rfl, hxg, hxs⟩ := h.holder g hg k hk
    refine ⟨hfirst, ?_⟩
    by_cases hxe : x.key = e.key
    · have : x = e := hd.eq hx he hxe
      subst this
      exact ⟨_, (hmem _).2 (.inl rfl), rfl, hxg, hnew rfl⟩
    · exact ⟨x, (hmem x).2 (.inr ⟨hx, hxe⟩), rfl, hxg, hxs⟩
  split at hk
  next hgroup =>
    rw [if_pos hgroup, Group.follow_firstUp]
    rcases Group.follow_holder hk with ⟨ht, hfirst, rfl⟩ | ⟨hk, hnew⟩
    · refine ⟨hfirst, _, (hmem _).2 (.inl rfl), rfl, hgroup.symm, ?_⟩
      simp [alarmState_withAlarm, hraised ht]
    · exact held hk hnew
  next hgroup =>
    rw [if_neg hgroup]
    refine held hk fun hke => ?_
    obtain ⟨-, x, hx, hxk, hxg, -⟩ := h.holder g hg k hk
    rw [hd.eq hx he (hxk.trans hke)] at hxg
    exact absurd hxg.symm hgroup

/-- A transition of a held entry to a lawful record keeps the agreement. -/
theorem transition (hcause : new.cause = none ↔ new.state = .normal) :
    AlarmsAgree (s.transition e old new t c) := by
  have hmem (x : PointEntry) : x ∈ (s.transition e old new t c).points ↔ _ :=
    mem_withAlarm hd he new
  obtain ⟨hunack, hringback, hhornCount⟩ := h.transition_counted hd he hold (new := new) (t := t) c
  refine ⟨fun x hx => ?_, fun x hx a ha => ?_, hunack, hringback, hhornCount,
    h.transition_horn hd he hold hraised c, h.transition_holder hd he hold hraised c⟩
  · rcases (hmem x).1 hx with rfl | ⟨hx, -⟩
    · simpa [hold] using h.presence e he
    · exact h.presence x hx
  · rcases (hmem x).1 hx with rfl | ⟨hx, -⟩
    · cases ha; exact hcause
    · exact h.cause x hx a ha

end

end AlarmsAgree

/-- What evaluation makes of a lawful record is lawful, and a raise leaves it in UNACK (R65, R66). -/
theorem alarmAfter_lawful {a : AlarmRecord} (h : a.cause = none ↔ a.state = .normal)
    (r : Option Cause) (now : Stamp) :
    ((alarmAfter a r now).1.cause = none ↔ (alarmAfter a r now).1.state = .normal) ∧
      ((alarmAfter a r now).2 = some .raised → (alarmAfter a r now).1.state = .unack) := by
  obtain ⟨state, cause, generation, raised⟩ := a
  cases state <;> cases r <;> simp only [alarmAfter] <;> (repeat' split) <;> simp_all

theorem AlarmsAgree.evaluatePoint {s : State} (h : AlarmsAgree s) (hd : KeysDistinct s.points)
    (k : Key) : AlarmsAgree (s.evaluatePoint k) := by
  unfold State.evaluatePoint
  split
  next e he =>
    split
    next a ha =>
      rw [applyResult_cases]
      have hlaw := alarmAfter_lawful (h.cause e (point_mem he) a ha) e.evaluate s.stamp
      split
      next => exact h
      next t ht =>
        exact h.transition hd (point_mem he) ha (fun htr => hlaw.2 (htr ▸ ht)) _ hlaw.1
    next => exact h
  next => exact h

theorem AlarmRecord.acknowledged_lawful {a : AlarmRecord} (h : a.cause = none ↔ a.state = .normal) :
    a.acknowledged.cause = none ↔ a.acknowledged.state = .normal := by
  obtain ⟨state, cause, generation, raised⟩ := a
  cases state <;> simp_all [AlarmRecord.acknowledged]

theorem AlarmsAgree.acknowledge {s : State} (h : AlarmsAgree s) (hd : KeysDistinct s.points)
    (k : Key) : AlarmsAgree (s.acknowledge k) := by
  unfold State.acknowledge
  split
  next e he =>
    split
    next a ha =>
      split
      next =>
        exact h.transition hd (point_mem he) ha (by simp) _
          (AlarmRecord.acknowledged_lawful (h.cause e (point_mem he) a ha))
      next => exact h
    next => exact h
  next => exact h

/-! ### The horn and the groups -/

theorem AlarmsAgree.silenceHorn {s : State} (h : AlarmsAgree s) : AlarmsAgree s.silenceHorn := by
  have heq : s.alarms.silence = { s.alarms with horn := s.alarms.silence.horn } := by
    unfold AlarmUnit.silence
    split <;> rfl
  have halarms : s.silenceHorn.alarms = { s.alarms with horn := s.alarms.silence.horn } := heq
  refine ⟨h.presence, h.cause, ?_, ?_, ?_, ?_, h.holder⟩
  · rw [halarms]; exact h.unack
  · rw [halarms]; exact h.ringback
  · rw [halarms]; exact h.hornCount
  · intro hzero
    rw [halarms] at hzero ⊢
    simp [AlarmUnit.silence, h.horn hzero]

theorem AlarmsAgree.setHornEnables {s : State} (h : AlarmsAgree s) (e1 e2 e3 : Bool) :
    AlarmsAgree (s.setHornEnables e1 e2 e3) := by
  have halarms : (s.setHornEnables e1 e2 e3).alarms = { s.alarms with
      enable1 := e1, enable2 := e2, enable3 := e3
      hornCount := hornCountOf { s.alarms with enable1 := e1, enable2 := e2, enable3 := e3 } s.points
      horn := (s.setHornEnables e1 e2 e3).alarms.horn } := AlarmUnit.quiet_eq _
  refine ⟨h.presence, h.cause, ?_, ?_, ?_, ?_, h.holder⟩
  · rw [halarms]; exact h.unack
  · rw [halarms]; exact h.ringback
  · rw [halarms, AlarmUnit.hornOn_eq]
    simp only [hornCountOf, ← List.countP_eq_length_filter]
    rfl
  · intro hzero
    rw [halarms] at hzero
    exact AlarmUnit.quiet_horn _ hzero

theorem AlarmsAgree.modifyGroup {s : State} (h : AlarmsAgree s) (g : Nat) (on : Bool) :
    AlarmsAgree (s.modifyGroup g (Group.enable on)) where
  presence := h.presence
  cause := h.cause
  unack := h.unack
  ringback := h.ringback
  hornCount := h.hornCount
  horn := h.horn
  holder i hi k hk := by
    rw [modifyGroup_group] at hk ⊢
    split at hk
    next hgroup =>
      rw [if_pos hgroup]
      cases on with
      | false => cases hk
      | true => exact ⟨rfl, (h.holder i hi k hk).2⟩
    next hgroup =>
      rw [if_neg hgroup]
      exact h.holder i hi k hk

/-! ### Entries loaded and retired (R13, R83) -/

/-- The alarm side of an entry at its load (R4, R63): a fresh record exactly with priority 1..3. -/
def AlarmFresh (e : PointEntry) : Prop :=
  e.priority ≤ 3 ∧ e.alarm = if e.priority = 0 then none else some .fresh

theorem LoadedFrom.alarmFresh {b : List Byte} {e : PointEntry} (h : LoadedFrom e b)
    (hr : InRange e) : AlarmFresh e := ⟨hr.priority, h.record⟩

namespace AlarmFresh

variable {e : PointEntry} (h : AlarmFresh e)
include h

theorem presence : e.priority ≤ 3 ∧ (e.alarm = none ↔ e.priority = 0) := by
  obtain ⟨hp, ha⟩ := h
  refine ⟨hp, ?_⟩
  rw [ha]
  split <;> simp_all

theorem cause (a : AlarmRecord) (ha : e.alarm = some a) : a.cause = none ↔ a.state = .normal := by
  rw [h.2] at ha
  split at ha <;> cases ha
  simp [AlarmRecord.fresh]

theorem alarmState : e.alarmState = .normal := by
  unfold PointEntry.alarmState
  rw [h.2]
  split
  next a ha =>
    split at ha <;> cases ha
    rfl
  next => rfl

end AlarmFresh

/-- Fresh records, counts of 0, the horn OFF and no holder agree. -/
theorem alarmsAgree_fresh {s : State} (hp : ∀ e ∈ s.points, AlarmFresh e)
    (ha : s.alarms.unack = 0 ∧ s.alarms.ringback = 0 ∧ s.alarms.hornCount = 0 ∧ s.alarms.horn = .off)
    (hg : ∀ (g : Nat) (h : g < 16), s.groups[g].holder = none) : AlarmsAgree s := by
  obtain ⟨hunack, hringback, hhornCount, hhorn⟩ := ha
  have hnormal (p : PointEntry → Bool) (hn : ∀ e, e.alarmState = .normal → p e = false) :
      0 = s.points.countP p :=
    (List.countP_eq_zero.2 fun e he => by simp [hn e (hp e he).alarmState]).symm
  refine ⟨fun e he => (hp e he).presence, fun e he => (hp e he).cause, ?_, ?_, ?_, fun _ => hhorn, ?_⟩
  · rw [hunack]; exact hnormal _ fun e he => by simp [he]
  · rw [hringback]; exact hnormal _ fun e he => by simp [he]
  · rw [hhornCount]; exact hnormal _ fun e he => by simp [he]
  · intro g h k hk
    rw [hg g h] at hk
    cases hk

/-- The counts after a retirement lack the entry's own part (R13, R69). -/
theorem retire_alarms (s : State) (e : PointEntry) : (s.retire e).alarms = { s.alarms with
    unack := s.alarms.unack - one (e.alarmState == .unack)
    ringback := s.alarms.ringback - one (e.alarmState == .rtnUnack)
    hornCount := s.alarms.hornCount -
      one (e.alarmState == .unack && s.alarms.hornOn e.priority)
    horn := (s.retire e).alarms.horn } := by
  have hr := retire_retired s e
  cases ha : e.alarm with
  | none =>
    have hsame := (hr.quiet (by simp [ha])).1
    have hn : e.alarmState = .normal := by simp [PointEntry.alarmState, ha]
    rw [hsame, hn]
    rfl
  | some a =>
    have hst : e.alarmState = a.state := by simp [PointEntry.alarmState, ha]
    by_cases hn : a.state = .normal
    · have hsame := (hr.quiet fun b hb => by rw [ha] at hb; cases hb; exact hn).1
      rw [hsame, hst, hn]
      rfl
    · have hd := hr.discounted a ha hn
      rw [hst]
      conv_lhs => rw [hd]
      have hhorn := congrArg AlarmUnit.horn hd
      simp only [one, beq_iff_eq, Bool.and_eq_true] at hhorn ⊢
      rw [hhorn]

theorem retire_horn {s : State} (h : s.alarms.hornCount = 0 → s.alarms.horn = .off) (e : PointEntry)
    (hzero : (s.retire e).alarms.hornCount = 0) : (s.retire e).alarms.horn = .off := by
  unfold State.retire at hzero ⊢
  split
  next a ha =>
    simp only [ha] at hzero
    split
    next hn => rw [if_pos hn] at hzero; exact h hzero
    next hn =>
      rw [if_neg hn] at hzero
      dsimp only at hzero ⊢
      rw [AlarmUnit.quiet_eq] at hzero
      exact AlarmUnit.quiet_horn _ hzero
  next ha =>
    simp only [ha] at hzero
    exact h hzero

/-- A holder after a retirement was one before, and is not the retired entry where that stands in alarm. -/
theorem retire_holder {s : State} {e : PointEntry} {g : Nat} (hg : g < 16) {k : Key}
    (h : (s.retire e).groups[g].holder = some k) : s.groups[g].holder = some k ∧
      (s.retire e).groups[g].firstUp = s.groups[g].firstUp ∧
      (g + 1 = e.group → e.alarmState ≠ .normal → k ≠ e.key) := by
  have hr := retire_retired s e
  by_cases hn : ∀ a, e.alarm = some a → a.state = .normal
  · have hsame := (hr.quiet hn).2.1
    simp only [hsame] at h ⊢
    refine ⟨h, trivial, fun _ hne => absurd ?_ hne⟩
    cases ha : e.alarm with
    | none => simp [PointEntry.alarmState, ha]
    | some a => simpa [PointEntry.alarmState, ha] using hn a ha
  · push Not at hn
    obtain ⟨a, ha, hs⟩ := hn
    rw [hr.released a ha hs g hg] at h ⊢
    split at h
    · cases h
    next hnot =>
      rw [if_neg hnot]
      exact ⟨h, rfl, fun hgroup _ hk => hnot ⟨hgroup, hk ▸ h⟩⟩

/-- A held entry retired and gone from the table, or replaced by a fresh one: the agreement is kept. -/
theorem AlarmsAgree.retired {s t : State} (h : AlarmsAgree s) (hd : KeysDistinct s.points)
    {old : PointEntry} (hold : old ∈ s.points) (halarms : t.alarms = (s.retire old).alarms)
    (hgroups : t.groups = (s.retire old).groups)
    (hlaw : ∀ x ∈ t.points, x ∈ s.points ∨ AlarmFresh x)
    (hrest : ∀ x ∈ s.points, x.key ≠ old.key → x ∈ t.points)
    (hcount : ∀ p : PointEntry → Bool, (∀ x, x.alarmState = .normal → p x = false) →
      t.points.countP p + one (p old) = s.points.countP p) : AlarmsAgree t := by
  have hcounts := retire_alarms s old
  rw [← halarms] at hcounts
  have hon : t.alarms.hornOn = s.alarms.hornOn := by rw [hcounts]; rfl
  refine ⟨?_, ?_, ?_, ?_, ?_, ?_, ?_⟩
  · intro x hx
    rcases hlaw x hx with hx | hx
    · exact h.presence x hx
    · exact hx.presence
  · intro x hx
    rcases hlaw x hx with hx | hx
    · exact h.cause x hx
    · exact hx.cause
  · have := hcount (fun x => x.alarmState == .unack) fun x hx => by simp [hx]
    rw [hcounts]
    simp only [h.unack]
    omega
  · have := hcount (fun x => x.alarmState == .rtnUnack) fun x hx => by simp [hx]
    rw [hcounts]
    simp only [h.ringback]
    omega
  · have := hcount (fun x => x.alarmState == .unack && s.alarms.hornOn x.priority)
      fun x hx => by simp [hx]
    rw [hon, hcounts]
    simp only [h.hornCount]
    omega
  · rw [halarms]
    exact retire_horn h.horn old
  · intro g hg k hk
    simp only [hgroups] at hk ⊢
    obtain ⟨hk, hfirst, hnot⟩ := retire_holder hg hk
    obtain ⟨hfirstUp, x, hx, rfl, hxg, hxs⟩ := h.holder g hg k hk
    refine ⟨hfirst.trans hfirstUp, x, hrest x hx fun hxo => ?_, rfl, hxg, hxs⟩
    have : x = old := hd.eq hx hold hxo
    subst this
    exact hnot hxg.symm hxs rfl

theorem AlarmsAgree.replaceEntry {s : State} (h : AlarmsAgree s) (hd : KeysDistinct s.points)
    {old e : PointEntry} (hold : s.point e.key = some old) (he : AlarmFresh e) :
    AlarmsAgree (s.replaceEntry old e) := by
  have hkey : old.key = e.key := point_key hold
  have hmem (x : PointEntry) : x ∈ (s.replaceEntry old e).points ↔
      x = e ∨ (x ∈ s.points ∧ x.key ≠ e.key) := by
    rw [replaceEntry_points]
    exact mem_modifyPoint_const (point_mem hold) hkey
  refine h.retired hd (point_mem hold) (by rw [replaceEntry_frame]) (by rw [replaceEntry_frame]) ?_ ?_ ?_
  · intro x hx
    rcases (hmem x).1 hx with rfl | ⟨hx, -⟩
    · exact .inr he
    · exact .inl hx
  · exact fun x hx hxk => (hmem x).2 (.inr ⟨hx, hkey ▸ hxk⟩)
  · intro p hp
    have hcount := countP_modifyPoint hd (point_mem hold) (fun _ => e) p
    rw [hp e he.alarmState, hkey] at hcount
    rw [replaceEntry_points]
    simpa [one] using hcount

theorem AlarmsAgree.dropEntry {s : State} (h : AlarmsAgree s) (hd : KeysDistinct s.points)
    {e : PointEntry} (he : e ∈ s.points) : AlarmsAgree (s.dropEntry e) := by
  have hmem (x : PointEntry) : x ∈ (s.dropEntry e).points ↔ x ∈ s.points ∧ x.key ≠ e.key := by
    rw [dropEntry_points]; simp
  refine h.retired hd he (by rw [dropEntry_frame]) (by rw [dropEntry_frame]) ?_ ?_ ?_
  · exact fun x hx => .inl ((hmem x).1 hx).1
  · exact fun x hx hxk => (hmem x).2 ⟨hx, hxk⟩
  · intro p _
    rw [dropEntry_points]
    exact countP_filter_key hd he p

theorem AlarmsAgree.insertEntry {s : State} (h : AlarmsAgree s) {e : PointEntry}
    (he : AlarmFresh e) : AlarmsAgree (s.insertEntry e) := by
  have halarms : (s.insertEntry e).alarms = s.alarms := by rw [insertEntry_frame]
  have hgroups : (s.insertEntry e).groups = s.groups := by rw [insertEntry_frame]
  have hmem (x : PointEntry) : x ∈ (s.insertEntry e).points ↔ x = e ∨ x ∈ s.points := by
    rw [insertEntry_points]; exact mem_insertPoint
  have hcount (p : PointEntry → Bool) (hp : p e = false) :
      (s.insertEntry e).points.countP p = s.points.countP p := by
    rw [insertEntry_points, (insertPoint_perm e s.points).countP_eq p, List.countP_cons_of_neg (by simp [hp])]
  refine ⟨?_, ?_, ?_, ?_, ?_, ?_, ?_⟩
  · intro x hx
    rcases (hmem x).1 hx with rfl | hx
    · exact he.presence
    · exact h.presence x hx
  · intro x hx
    rcases (hmem x).1 hx with rfl | hx
    · exact he.cause
    · exact h.cause x hx
  · rw [halarms, h.unack, hcount _ (by simp [he.alarmState])]
  · rw [halarms, h.ringback, hcount _ (by simp [he.alarmState])]
  · rw [halarms, h.hornCount, hcount _ (by simp [he.alarmState])]
  · rw [halarms]; exact h.horn
  · intro g hg k hk
    simp only [hgroups] at hk ⊢
    obtain ⟨hfirst, x, hx, hrest⟩ := h.holder g hg k hk
    exact ⟨hfirst, x, (hmem x).2 (.inr hx), hrest⟩

/-! ### TABLE CLEAR, RESTART and reset -/

theorem clearHolders_holder (s : State) (g : Nat) (hg : g < 16) :
    s.clearHolders.groups[g] = ⟨s.groups[g].firstUp, none⟩ := by
  simp [State.clearHolders]

theorem alarmsAgree_clearTable (s : State) : AlarmsAgree s.clearTable :=
  alarmsAgree_fresh (by simp [show s.clearTable.points = [] from rfl]) ⟨rfl, rfl, rfl, rfl⟩
    fun g hg => congrArg Group.holder
      (clearHolders_holder { s with points := [], outstations := [] } g hg)

theorem AlarmsAgree.restartAll {s : State} (h : AlarmsAgree s) : AlarmsAgree s.restartAll := by
  have hblocks : AlarmsAgree s.restartBlocks := by
    refine alarmsAgree_fresh (fun e he => ?_) ⟨rfl, rfl, rfl, rfl⟩ fun g hg => ?_
    · obtain ⟨x, hx, rfl⟩ :=
        List.mem_map.1 (show e ∈ s.points.map PointEntry.fresh from he)
      exact ⟨(h.presence x hx).1, rfl⟩
    · exact congrArg Group.holder (clearHolders_holder { s.emptyQueues.restartPort with
        points := s.points.map PointEntry.fresh
        outstations := s.outstations.map OutstationEntry.restart, unmapped := 0 } g hg)
  exact hblocks.undisturbed (restartAll_undisturbed s)

theorem alarmsAgree_hardwareReset (s : State) (source : ResetSource) (straps : BitVec 6) :
    AlarmsAgree (s.hardwareReset source straps) :=
  alarmsAgree_fresh (by simp [State.hardwareReset, State.afterReset]) ⟨rfl, rfl, rfl, rfl⟩
    fun g hg => by simp [State.hardwareReset, State.afterReset]

/-- Together with the order of the tables, the agreement is kept by every operation that changes them. -/
theorem alarmsAgree_kept : KeptByChanges fun s => TablesInOrder s ∧ AlarmsAgree s where
  undisturbed hu h := ⟨tablesInOrder_kept.undisturbed hu h.1, h.2.undisturbed hu⟩
  evaluatePoint s k h := ⟨tablesInOrder_kept.evaluatePoint s k h.1, h.2.evaluatePoint h.1.distinct k⟩
  acknowledge s k h := ⟨tablesInOrder_kept.acknowledge s k h.1, h.2.acknowledge h.1.distinct k⟩
  silenceHorn s h := ⟨tablesInOrder_kept.silenceHorn s h.1, h.2.silenceHorn⟩
  setHornEnables s e1 e2 e3 h :=
    ⟨tablesInOrder_kept.setHornEnables s e1 e2 e3 h.1, h.2.setHornEnables e1 e2 e3⟩
  setGroup s g on h := ⟨tablesInOrder_kept.setGroup s g on h.1,
    (h.2.modifyGroup g on).undisturbed (settleLamps_undisturbed _)⟩
  loadEntry s b e hb hr h := by
    refine ⟨tablesInOrder_kept.loadEntry s b e hb hr h.1, ?_⟩
    have he := (loadedFrom_of_entryOfBlock hb).alarmFresh (inRange_of_entryOfBlock hb)
    unfold State.loadEntry
    split
    next old hold => exact h.2.replaceEntry h.1.distinct hold he
    next => exact h.2.insertEntry he
  dropEntry s k e he h :=
    ⟨tablesInOrder_kept.dropEntry s k e he h.1, h.2.dropEntry h.1.distinct (point_mem he)⟩
  clearTable s h := ⟨tablesInOrder_kept.clearTable s h.1, alarmsAgree_clearTable s⟩
  restartAll s h := ⟨tablesInOrder_kept.restartAll s h.1, h.2.restartAll⟩
  hardwareReset s source straps :=
    ⟨tablesInOrder_kept.hardwareReset s source straps, alarmsAgree_hardwareReset s source straps⟩

/-- Settles O58: with the tables in order, every change a step can make keeps the alarms in agreement. -/
theorem everyStepKeepsTheAlarmsInAgreement : Obligations.EveryStepKeepsTheAlarmsInAgreement :=
  fun _ _ htables halarms hstep => (alarmsAgree_kept.step ⟨htables, halarms⟩ hstep).2

end Sys2Proof.Machine
end

section
/-! The commands of the Point Table (R6 to R22) and RESTART (R181), settled by what their operations leave. -/

namespace Sys2Proof.Machine

/-! ### A command answered -/

/-- The port after an addressed command whose effect leaves it alone. -/
theorem heard_of_received {s t : State} {h : CommandHead} (ha : Addressed s h)
    (ht : t.port = s.received.port) : Heard s t := by
  rw [Heard, ht, received_of_station ha.assigned.1]

/-- The state an addressed command leaves: the state of its effect, with its reply queued. -/
def State.answered (u : State) (h : CommandHead) (code : Byte) (data : List Byte) : State :=
  { u with commands := { u.commands with
      replies := u.commands.replies ++ [replyOf h code .ok data] } }

theorem answered_oneReply {s u : State} {h : CommandHead} {code : Byte} {data : List Byte}
    (hu : u.commands = s.commands) : OneReply s (u.answered h code data) h code .ok data := by
  unfold OneReply State.answered
  rw [hu]
  rfl

/-- The retirement of an entry is a matter of the alarm side and the stamp alone. -/
theorem Retired.congr {s s' t t' : State} {e : PointEntry} (h : Retired s t e)
    (hsa : s'.alarms = s.alarms) (hsg : s'.groups = s.groups) (hsr : s'.reports = s.reports)
    (hst : s'.stamp = s.stamp) (hta : t'.alarms = t.alarms) (htg : t'.groups = t.groups)
    (htr : t'.reports = t.reports) : Retired s' t' e where
  quiet := by rw [hsa, hsg, hsr, hta, htg, htr]; exact h.quiet
  reported := by rw [hsr, hst, htr]; exact h.reported
  released := by simp only [hsg, htg]; exact h.released
  discounted := by rw [hsa, hta]; exact h.discounted

/-! ### POINT LOAD (R6 to R14) -/

/-- Settles O22: the checks of `loadRefusal` taken in order. -/
theorem pointLoadIsRefusedByTheFirstCheckThatFails :
    Obligations.PointLoadIsRefusedByTheFirstCheckThatFails := by
  intro h b s ha hspans hlen hnot
  by_cases hbad : BadFields b
  · obtain ⟨t, ht, hans⟩ := arriveCommand_refused ha (code := 0x20) (r := .badParam) (data := [])
      rfl hlen (by
        change takePointLoad b s.received = _
        simp [takePointLoad, entryOfBlock_eq_none.2 hbad, Answer.refuse])
    exact ⟨t, _, ht, hans, by simp [hbad]⟩
  obtain ⟨e, he⟩ := Option.ne_none_iff_exists'.1 (mt entryOfBlock_eq_none.1 hbad)
  have refused (r : Result) (hr : s.received.loadRefusal e = some r) :
      ∃ t, exec (.pointLoad h b) s = .next t ∧ AnsweredOnly s t h 0x20 r [] :=
    arriveCommand_refused ha rfl hlen (by
      change takePointLoad b s.received = _
      simp [takePointLoad, he, hr, Answer.refuse])
  obtain ⟨range, analogue, taken, place, outstation, -⟩ :=
    (loadedFrom_of_entryOfBlock he).loadRefusal (s := s.received) hbad hspans
  by_cases hrange : 256 < field8 b 4 + field8 b 5
  · obtain ⟨t, ht, hans⟩ := refused _ (range hrange)
    exact ⟨t, _, ht, hans, by simp [hbad, hrange, Nat.not_le.2 hrange]⟩
  have hrange := Nat.not_lt.1 hrange
  by_cases hana : BadAnalogue b
  · obtain ⟨t, ht, hans⟩ := refused _ (analogue hrange hana)
    exact ⟨t, _, ht, hans, by simp [hbad, hana, hrange, Nat.not_lt.2 hrange]⟩
  by_cases htaken : LampTaken s b
  · obtain ⟨t, ht, hans⟩ := refused _ (taken hrange hana htaken)
    exact ⟨t, _, ht, hans, by simp [hbad, hana, htaken, Nat.not_lt.2 hrange]⟩
  by_cases hplace : NoPlace s b
  · obtain ⟨t, ht, hans⟩ := refused _ (place hrange hana htaken hplace)
    exact ⟨t, _, ht, hans, by simp [hbad, hana, htaken, hplace, Nat.not_lt.2 hrange]⟩
  by_cases hout : NoOutstation s b
  · obtain ⟨t, ht, hans⟩ := refused _ (outstation hrange hana htaken hplace hout)
    exact ⟨t, _, ht, hans, by simp [hbad, hana, htaken, hplace, Nat.not_lt.2 hrange]⟩
  exact absurd ⟨hlen, hbad, hrange, hana, htaken, hplace, hout⟩ hnot

/-- A loadable block describes an entry, which the command loads. -/
theorem exec_pointLoad {s : State} {h : CommandHead} {b : List Byte} (ha : Addressed s h)
    (ht : TablesInOrder s) (hl : Loadable s b) : ∃ e, LoadedFrom e b ∧
      exec (.pointLoad h b) s = .next ((s.received.loadEntry e).answered h 0x20
        (bytes16 (s.received.loadEntry e).points.length)) := by
  obtain ⟨hlen, hbad, hrange, hana, htaken, hplace, hout⟩ := hl
  obtain ⟨e, he⟩ := Option.ne_none_iff_exists'.1 (mt entryOfBlock_eq_none.1 hbad)
  have hspans : ∀ x ∈ s.points, 1 ≤ x.span := by
    intro x hx
    have := (ht.spans x hx).2
    split at this <;> omega
  have hfrom := loadedFrom_of_entryOfBlock he
  obtain ⟨-, -, -, -, -, hnone⟩ := hfrom.loadRefusal (s := s.received) hbad hspans
  have hr := hnone hrange hana htaken hplace hout
  exact ⟨e, hfrom, arriveCommand_answered ha rfl hlen (by
    change takePointLoad b s.received = _
    simp only [takePointLoad, he, hr, Answer.ok])⟩

/-- Settles O23: the entry of the block inserted. -/
theorem pointLoadInsertsANewKey : Obligations.PointLoadInsertsANewKey := by
  intro h b s ha ht hl hnone
  obtain ⟨e, hfrom, hexec⟩ := exec_pointLoad ha ht hl
  have hkey : s.point e.key = none := by rw [hfrom.key]; exact hnone
  have hload : s.received.loadEntry e = s.received.insertEntry e := by
    unfold State.loadEntry
    rw [show s.received.point e.key = none from hkey]
  have hlen : (s.received.insertEntry e).points.length = s.points.length + 1 := by
    rw [insertEntry_points, (insertPoint_perm e _).length_eq]
    rfl
  rw [hload, hlen] at hexec
  have hframe := insertEntry_frame s.received e
  have hgain (n : Nat) : (s.received.insertEntry e).outstation n =
      if n = e.key.outstation then
        some ((s.outstation n).elim (.create n) OutstationEntry.gain) else s.outstation n := by
    rw [insertEntry_outstation, gainPoint_outstation (s := s.received) ht.outstations]
    by_cases hn : n = e.key.outstation
    · subst hn; rfl
    · rw [if_neg hn, if_neg hn]; rfl
  refine ⟨_, e, hexec, ?_, heard_of_received ha ?_, answered_oneReply ?_, hfrom, ?_, ?_, ?_, ?_, ?_, ?_, ?_⟩
  · unfold State.answered
    rw [hframe]
    rfl
  · unfold State.answered
    rw [hframe]
  · rw [hframe]
    rfl
  · exact (insertEntry_points _ _).trans (insertPoint_eq ht.points (point_eq_none.1 hkey))
  · intro n o ho
    refine (hgain n).trans ?_
    rw [ho]
    split <;> rfl
  · intro n hn
    refine (hgain n).trans ?_
    rw [hn]
    split <;> rfl
  · change NumbersRise (s.received.insertEntry e).outstations
    rw [insertEntry_outstations]
    exact gainPoint_rises (s := s.received) ht.outstations _
  · exact insertEntry_lamps _ _
  · exact (settleLamps_settled _).withCommands _
  · intro c hc
    refine (insertEntry_kept s.received e c hc).trans ?_
    have hfree : s.received.lamps.channels[c].binding ≠ some e.key := ht.binding_of_not_held hc hkey
    simp only [PointEntry.owns_iff, if_neg hfree]
    rfl

/-- Settles O24: the entry of the block in the old one's place. -/
theorem pointLoadReplacesAHeldKey : Obligations.PointLoadReplacesAHeldKey := by
  intro h b old s ha ht hl hold
  obtain ⟨e, hfrom, hexec⟩ := exec_pointLoad ha ht hl
  have hkey : s.point e.key = some old := by rw [hfrom.key]; exact hold
  have hload : s.received.loadEntry e = s.received.replaceEntry old e := by
    unfold State.loadEntry
    rw [show s.received.point e.key = some old from hkey]
  have hlen : (s.received.replaceEntry old e).points.length = s.points.length := by
    rw [replaceEntry_points, modifyPoint, List.length_map]
    rfl
  rw [hload, hlen] at hexec
  have hframe := replaceEntry_frame s.received old e
  refine ⟨_, e, hexec, ?_, heard_of_received ha ?_, answered_oneReply ?_, hfrom, ?_, ?_, ?_, ?_, ?_⟩
  · unfold State.answered
    rw [hframe]
    rfl
  · unfold State.answered
    rw [hframe]
  · rw [hframe]
    rfl
  · exact replaceEntry_points _ _ _
  · refine (retire_retired s.received old).congr rfl rfl rfl rfl ?_ ?_ ?_ <;>
      (unfold State.answered; rw [hframe])
  · exact replaceEntry_lamps _ _ _
  · exact (settleLamps_settled _).withCommands _
  · intro c hc
    refine (replaceEntry_kept s.received old e c hc).trans ?_
    have hbound : s.received.lamps.channels[c].binding = some e.key ↔ old.owns c :=
      ht.binding_of_held hc hkey
    simp only [hbound, PointEntry.owns_iff]
    rfl

/-! ### POINT DROP (R16) -/

/-- Settles O25: the entry retired and removed, or NOT_FOUND. -/
theorem pointDropRemovesTheEntry : Obligations.PointDropRemovesTheEntry := by
  intro h b s ha ht hlen
  cases hk : s.point (blockKey b) with
  | none =>
    obtain ⟨t, hexec, hans⟩ := arriveCommand_refused ha (code := 0x21) (r := .notFound) (data := [])
      rfl hlen (by
        change takePointDrop b s.received = _
        simp only [takePointDrop, show s.received.point (keyField b 0) = none from hk]
        rfl)
    exact ⟨t, hexec, fun _ => hans, fun e he => by simp at he⟩
  | some e =>
    have hmem := point_mem hk
    have hkey := point_key hk
    have hframe := dropEntry_frame s.received e
    have hlength : (s.received.dropEntry e).points.length + 1 = s.points.length := by
      rw [dropEntry_points]
      exact length_filter_key ht.distinct hmem
    refine ⟨(s.received.dropEntry e).answered h 0x21 (bytes16 (s.points.length - 1)),
      arriveCommand_answered ha (code := 0x21) rfl hlen ?_, fun hn => by simp at hn, fun e' he' => ?_⟩
    · change takePointDrop b s.received = _
      simp only [takePointDrop, show s.received.point (keyField b 0) = some e from hk, Answer.ok,
        ← hlength, Nat.add_sub_cancel]
    cases he'
    refine ⟨?_, heard_of_received ha ?_, answered_oneReply ?_, ?_, hlength, ?_, ?_, ?_, ?_, ?_⟩
    · unfold State.answered
      rw [hframe]
      rfl
    · unfold State.answered
      rw [hframe]
    · rw [hframe]
      rfl
    · refine (dropEntry_points _ _).trans (List.filter_congr fun x _ => ?_)
      rw [hkey]
      simp [bne, Bool.beq_eq_decide_eq]
    · refine (retire_retired s.received e).congr rfl rfl rfl rfl ?_ ?_ ?_ <;>
        (unfold State.answered; rw [hframe])
    · intro n
      refine (dropEntry_outstation s.received e n).trans ?_
      rw [losePoint_outstation (s := s.received) ht.outstations]
      by_cases hn : n = e.key.outstation
      · subst hn
        simp only [if_true, ne_eq, not_true_eq_false, if_false]
        rfl
      · rw [if_neg hn, if_pos hn]
        rfl
    · exact dropEntry_lamps _ _
    · exact (settleLamps_settled _).withCommands _
    · intro c hc
      refine (dropEntry_kept s.received e c hc).trans ?_
      have hbound : s.received.lamps.channels[c].binding = some e.key ↔ e.owns c :=
        ht.binding_of_held hc (hkey.symm ▸ hk)
      simp only [hbound, PointEntry.owns_iff]
      rfl

/-! ### TABLE CLEAR (R17) -/

/-- Settles O27: both tables emptied, with one TABLE_CLEARED record. -/
theorem tableClearEmptiesTheTables : Obligations.TableClearEmptiesTheTables := by
  intro h s ha
  refine ⟨s.received.clearTable.answered h 0x23 (bytes16 s.points.length),
    arriveCommand_answered ha (code := 0x23) rfl rfl rfl, ?_, heard_of_received ha rfl,
    answered_oneReply rfl, fun g hg => ?_, rfl, (settleLamps_settled _).withCommands _,
    fun c hc => clearTable_kept s.received c hc⟩
  · rw [Reports.joined_eq]
    rfl
  · exact clearHolders_holder { s.received with points := [], outstations := [] } g hg

/-! ### GROUP SET (R22) -/

/-- Settles O29: the enable set in one group, or BAD_PARAM. -/
theorem groupSetSetsFirstUp : Obligations.GroupSetSetsFirstUp := by
  intro h b s ha hlen
  by_cases hok : 1 ≤ field8 b 0 ∧ field8 b 0 ≤ 16 ∧ field8 b 1 ≤ 1
  · obtain ⟨hlow, hhigh, hon⟩ := hok
    have hb : boolOfCode (field8 b 1) = some (decide (field8 b 1 = 1)) :=
      boolOfCode_eq_some.2 ⟨hon, rfl⟩
    refine ⟨(s.received.setGroup (field8 b 0) (field8 b 1 = 1)).answered h 0x25 [],
      arriveCommand_answered ha (code := 0x25) rfl hlen ?_, fun hbad => by omega, fun _ => ?_⟩
    · change takeGroupSet b s.received = _
      simp only [takeGroupSet, hb, hlow, hhigh, and_self, if_true]
      rfl
    · refine ⟨rfl, heard_of_received ha rfl, answered_oneReply rfl,
        (onlyRedriven_settleLamps rfl).withCommands _, fun g hg => ?_⟩
      refine (modifyGroup_group s.received (field8 b 0) _ g hg).trans ?_
      split
      · by_cases h1 : field8 b 1 = 1 <;> simp [h1, Group.enable]
      · rfl
  · obtain ⟨t, hexec, hans⟩ := arriveCommand_refused ha (code := 0x25) (r := .badParam) (data := [])
      rfl hlen (by
        change takeGroupSet b s.received = _
        unfold takeGroupSet
        dsimp only
        split
        next on hb =>
          have hle := (boolOfCode_eq_some.1 hb).1
          rw [if_neg (by omega)]
          rfl
        next => rfl)
    exact ⟨t, hexec, fun _ => hans, fun hok' => absurd hok' hok⟩

end Sys2Proof.Machine
end

section
/-! The bytes that replies are laid out in, and TABLE SCAN (R19, R200). -/

namespace Sys2Proof.Machine

/-! ### Fields of laid out bytes -/

theorem byteOf_toNat (n : Nat) : (byteOf n).toNat = n % 256 := by
  simp [byteOf]

@[simp] theorem field8_cons_zero (x : Byte) (l : List Byte) : field8 (x :: l) 0 = x.toNat := rfl

@[simp] theorem field8_cons_succ (x : Byte) (l : List Byte) (i : Nat) :
    field8 (x :: l) (i + 1) = field8 l i := rfl

theorem field8_replicate_zero (n i : Nat) : field8 (List.replicate n 0) i = 0 := by
  induction n generalizing i with
  | zero => rfl
  | succ n ih =>
    cases i with
    | zero => rfl
    | succ i => exact ih i

/-- A two-byte field holds the low sixteen bits of what is laid out in it. -/
theorem field16_bytes16 (n : Nat) (l : List Byte) : field16 (bytes16 n ++ l) 0 = n % 65536 := by
  simp only [field16, bytes16, List.cons_append, field8_cons_zero, field8_cons_succ, byteOf_toNat]
  omega

/-! ### Keys laid out -/

theorem Key.bytes_length (k : Key) : k.bytes.length = 3 := rfl

theorem flatMap_keyBytes_length (keys : List Key) : (keys.flatMap Key.bytes).length = 3 * keys.length := by
  induction keys with
  | nil => rfl
  | cons k keys ih => rw [List.flatMap_cons, List.length_append, ih, Key.bytes_length, List.length_cons]; omega

theorem keyField_bytes {k : Key} (ho : k.outstation < 65536) (hi : k.index < 256) (l : List Byte) :
    keyField (k.bytes ++ l) 0 = k := by
  have hindex : field8 (k.bytes ++ l) 2 = k.index % 256 := byteOf_toNat _
  have hnumber : field16 (k.bytes ++ l) 0 = k.outstation % 65536 := by
    rw [Key.bytes, List.append_assoc, field16_bytes16]
  rw [keyField, Nat.zero_add, hnumber, hindex, Nat.mod_eq_of_lt ho, Nat.mod_eq_of_lt hi]

/-- The slots of keys laid out one after another, 0/0 from the last key on. -/
theorem keyField_flatMap {keys : List Key} (h : ∀ k ∈ keys, k.outstation < 65536 ∧ k.index < 256)
    (n j : Nat) : keyField (keys.flatMap Key.bytes ++ List.replicate n 0) (3 * j) = keys.getD j ⟨0, 0⟩ := by
  induction keys generalizing j with
  | nil => simp only [List.flatMap_nil, List.nil_append, keyField, field16, field8_replicate_zero]; rfl
  | cons k keys ih =>
    rw [List.flatMap_cons, List.append_assoc]
    cases j with
    | zero => exact keyField_bytes (h k List.mem_cons_self).1 (h k List.mem_cons_self).2 _
    | succ j => exact ih (fun k hk => h k (List.mem_cons_of_mem _ hk)) j

/-! ### TABLE SCAN (R19) -/

/-- Settles O28: the slots of the keys shown. -/
theorem tableScanListsKeysInOrder : Obligations.TableScanListsKeysInOrder := by
  intro h b s ha ht hlen keys hkeys
  have hrange : ∀ k ∈ keys.take 16, k.outstation < 65536 ∧ k.index < 256 := by
    intro k hk
    have hk := List.mem_of_mem_take hk
    rw [hkeys] at hk
    obtain ⟨e, he, rfl⟩ := List.mem_map.1 (List.mem_of_mem_filter hk)
    obtain ⟨-, hout, hidx⟩ := ht.keys e he
    omega
  obtain ⟨t, hexec, hans⟩ := arriveCommand_refused ha (code := 0x24) (r := .ok) (data := scanData keys)
    rfl hlen (by rw [hkeys]; rfl)
  refine ⟨t, _, hexec, hans, ?_, ?_, ?_, fun j hj => ?_⟩
  · simp only [scanData, List.length_cons, List.length_append, flatMap_keyBytes_length,
      List.length_replicate, List.length_take]
    omega
  · simp only [scanData, List.cons_append, field8_cons_zero, byteOf_toNat, List.length_take]
    omega
  · change (byteOf (one (decide (16 < keys.length)))).toNat = _
    rw [byteOf_toNat]
    by_cases hmore : 16 < keys.length <;> simp [hmore, one]
  · have hslot := keyField_flatMap hrange (3 * (16 - (keys.take 16).length)) j
    rw [List.getD_eq_getElem?_getD, List.getElem?_take_of_lt hj, ← List.getD_eq_getElem?_getD] at hslot
    rw [← hslot, Nat.add_comm 2, Nat.add_comm 4]
    rfl

end Sys2Proof.Machine
end

section
/-! RESTART (R181), block by block. -/

namespace Sys2Proof.Machine

theorem Generator.realign_eq (now : Nat) (g : Generator) : g.realign now = realigned now g := by
  obtain ⟨times, reload, run, phase⟩ := g
  cases run with
  | running =>
    simp [Generator.realign, realigned, Generator.applyReload, Generator.begin, CadenceTimes.length,
      Nat.mul_comm]
  | stopping => rfl
  | stopped => rfl

theorem Line.restart_eq (now : Nat) (l : Line) : l.restart now =
    if l.direction = .input then { l with level := none, timer := some now } else l := by
  unfold Line.restart
  cases l.direction <;> rfl

/-- With no standing cause nothing is latched again (R193). -/
theorem relatch_of_not_standing {s : State} (h : ∀ c, s.standing c = false) (set : Byte) :
    s.relatch set = s := by
  simp [State.relatch, Condition.all, h]

/-- The reports have no part in the standing causes. -/
theorem standing_withReports (s : State) (r : Reports) (c : Condition) :
    State.standing { s with reports := r } c = s.standing c := by
  cases c <;> rfl

theorem restartBlocks_outstations (s : State) :
    s.restartBlocks.outstations = s.outstations.map OutstationEntry.restart := rfl

/-- The blocks of RESTART remove every standing cause: supervision is NO_SYNC, no channel has a fault, no
outstation is stale. -/
theorem restartBlocks_not_standing (s : State) (c : Condition) : s.restartBlocks.standing c = false := by
  cases c with
  | lampFault =>
    change s.restartBlocks.lamps.channels.toList.any _ = false
    refine List.any_eq_false.2 fun ch hch => ?_
    obtain ⟨i, hi, rfl⟩ := Vector.mem_iff_getElem.1 (Vector.mem_toList_iff.1 hch)
    have hfault : s.restartBlocks.lamps.channels[i].fault = none :=
      congrArg Channel.fault (restartBlocks_kept s i hi)
    simp [hfault]
  | staleOutstation =>
    change s.restartBlocks.outstations.any _ = false
    rw [restartBlocks_outstations, List.any_map]
    exact List.any_eq_false.2 fun o _ => Bool.false_ne_true
  | _ => rfl

/-- The Condition Set and the STARTED record, after the blocks (R181, R199). -/
theorem restartAll_eq (s : State) : s.restartAll = { s.restartBlocks with
    reports := ⟨[⟨.started .command (s.port.station.getD 0), s.stamp⟩], 0, 0, s.reports.mask⟩ } := by
  change s.restartBlocks.restartConditions.record _ = _
  rw [State.restartConditions, relatch_of_not_standing]
  · rfl
  · exact fun c => (standing_withReports _ _ c).trans (restartBlocks_not_standing s c)

/-- Settles O18: the blocks of RESTART, each by what its own step leaves. -/
theorem restartKeepsTheConfigurationAlone : Obligations.RestartKeepsTheConfigurationAlone := by
  intro h s ha
  have hstation : s.received.port.station.getD 0 = h.dest := by
    rw [show s.received.port.station = some h.dest from ha.assigned.1]
    rfl
  have hrestart := restartAll_eq s.received
  rw [hstation] at hrestart
  refine ⟨_, arriveCommand_answered ha (code := 0x03) rfl rfl rfl, ?_⟩
  rw [hrestart]
  refine ⟨rfl, rfl, rfl, ?_, rfl, rfl, rfl, fun c => ?_, rfl, rfl, fun g hg => ?_, rfl, rfl, rfl,
    fun c hc => ?_, ?_, rfl, rfl, rfl, rfl, fun i => ?_, rfl, rfl⟩
  · rw [received_of_station ha.assigned.1]
    rfl
  · exact (Generators.map_get _ _ c).trans (Generator.realign_eq _ _)
  · exact clearHolders_holder _ g hg
  · exact restartBlocks_kept s.received c hc
  · exact (settleLamps_settled _).congr rfl rfl rfl rfl rfl rfl rfl rfl rfl
  · exact (Table.mapIdx_getElem _ _ _ i.isLt).trans (Line.restart_eq _ _)

end Sys2Proof.Machine
end

section
/-! POINT READ (R18): the block of an entry as held, its dynamic fields, and what their bytes say (R200). -/

namespace Sys2Proof.Machine

/-! ### Bytes of two nibbles, bytes after others -/

theorem nibbles_upper {u l : Nat} (hu : u < 16) (hl : l < 16) : (nibbles u l).toNat / 16 = u := by
  rw [nibbles, byteOf_toNat]
  omega

theorem nibbles_lower {u l : Nat} (hl : l < 16) : (nibbles u l).toNat % 16 = l := by
  rw [nibbles, byteOf_toNat]
  omega

theorem field8_append_left {p : List Byte} {i : Nat} (h : i < p.length) (l : List Byte) :
    field8 (p ++ l) i = field8 p i := by
  simp only [field8, List.getD_eq_getElem?_getD, List.getElem?_append_left h]

theorem field8_append_right (p l : List Byte) (i : Nat) :
    field8 (p ++ l) (p.length + i) = field8 l i := by
  simp only [field8, List.getD_eq_getElem?_getD, List.getElem?_append_right (Nat.le_add_right _ _),
    Nat.add_sub_cancel_left]

/-! ### The block of an entry (R200, 11.4.1) -/

theorem thresholdBytes_eq (t : Option Nat) : thresholdBytes t = bytes16 (t.getD 0xFFFF) := by
  cases t with
  | none => decide
  | some n => rfl

/-- The first eight bytes of a block, which every class has. -/
def PointEntry.header (e : PointEntry) (cls mode : Nat) : List Byte :=
  e.key.bytes ++ [nibbles cls mode, byteOf e.firstLamp, byteOf e.span, byteOf e.group,
    nibbles e.priority e.policy.code]

theorem blockBytes_binary {e : PointEntry} {inverted normal : Bool} (h : e.cls = .binary inverted normal) :
    e.blockBytes = e.header 1 (if inverted then 2 else 1) ++
      (nibbles normal.toNat 0 :: List.replicate 18 0) := by
  rw [PointEntry.blockBytes, h]
  rfl

theorem blockBytes_double {e : PointEntry} {limit : Nat} {disagree : Bool}
    (h : e.cls = .double limit disagree) : e.blockBytes = e.header 2 0 ++
      (nibbles 0 disagree.toNat :: byteOf limit :: List.replicate 17 0) := by
  rw [PointEntry.blockBytes, h]
  rfl

/-- The bytes of the ANALOGUE parameters. -/
def AnalogueParams.bytes (p : AnalogueParams) : List Byte :=
  bytes16 p.rawLo ++ bytes16 p.rawHi ++ bytes16 p.underMargin ++ bytes16 p.overMargin ++
    bytes16 (p.ll.getD 0xFFFF) ++ bytes16 (p.l.getD 0xFFFF) ++ bytes16 (p.h.getD 0xFFFF) ++
    bytes16 (p.hh.getD 0xFFFF) ++ [byteOf p.deadband]

/-- The display mode field of an ANALOGUE block (R200). -/
def ColumnMode.code : ColumnMode → Nat
  | .bar => 3
  | .dot => 4

theorem blockBytes_analogue {e : PointEntry} {mode : ColumnMode} {p : AnalogueParams}
    (h : e.cls = .analogue mode p) : e.blockBytes =
      e.header 3 mode.code ++ (0 :: 0 :: p.bytes) := by
  rw [PointEntry.blockBytes, h]
  simp only [thresholdBytes_eq]
  rfl

theorem blockBytes_length (e : PointEntry) : e.blockBytes.length = 27 := by
  cases h : e.cls with
  | binary => rw [blockBytes_binary h]; rfl
  | double => rw [blockBytes_double h]; rfl
  | analogue => rw [blockBytes_analogue h]; rfl

/-! ### A block that loads the same entry (R18) -/

/-- The ANALOGUE parameters that their fields can carry: a present threshold is not FFFFh. -/
structure AnalogueParams.Fits (p : AnalogueParams) : Prop where
  rawLo : p.rawLo < 65536
  rawHi : p.rawHi < 65536
  underMargin : p.underMargin < 65536
  overMargin : p.overMargin < 65536
  ll : ∀ n, p.ll = some n → n < 65535
  l : ∀ n, p.l = some n → n < 65535
  h : ∀ n, p.h = some n → n < 65535
  hh : ∀ n, p.hh = some n → n < 65535
  deadband : p.deadband < 256

/-- The class parameters that the fields of a block can carry. -/
def PointClass.Fits : PointClass → Prop
  | .binary _ _ => True
  | .double limit _ => limit < 256
  | .analogue _ p => p.Fits

theorem thresholdField_lt {b : List Byte} {i n : Nat} (h : thresholdField b i = some n) : n < 65535 := by
  obtain ⟨hpresent, rfl⟩ := thresholdField_eq_some.1 h
  have := field16_lt b i
  unfold Present at hpresent
  omega

theorem analogueField_fits (b : List Byte) : (analogueField b).Fits where
  rawLo := field16_lt _ _
  rawHi := field16_lt _ _
  underMargin := field16_lt _ _
  overMargin := field16_lt _ _
  ll _ := thresholdField_lt
  l _ := thresholdField_lt
  h _ := thresholdField_lt
  hh _ := thresholdField_lt
  deadband := field8_lt _ _

theorem LoadedFrom.cls_fits {b : List Byte} {e : PointEntry} (h : LoadedFrom e b)
    (hgood : ¬ BadFields b) : e.cls.Fits := by
  by_cases h1 : upperNibble b 3 = 1
  · rw [h.binary h1]; trivial
  by_cases h2 : upperNibble b 3 = 2
  · rw [h.double h2]; exact field8_lt _ _
  by_cases h3 : upperNibble b 3 = 3
  · rw [h.analogue h3]; exact analogueField_fits b
  exact absurd (badFields_iff.2 (.inr (.inl (classField_other (by omega))))) hgood

/-- A threshold written and read again. -/
theorem thresholdField_of_bytes {b : List Byte} {i : Nat} {t : Option Nat}
    (ht : ∀ n, t = some n → n < 65535) (hb : field16 b i = t.getD 0xFFFF % 65536) :
    thresholdField b i = t := by
  rw [thresholdField, hb]
  cases t with
  | none => rfl
  | some n =>
    have hn := ht n rfl
    rw [Option.getD_some, Nat.mod_eq_of_lt (by omega), if_neg (by omega)]

theorem analogueField_block {e : PointEntry} {mode : ColumnMode} {p : AnalogueParams}
    (h : e.cls = .analogue mode p) (hp : p.Fits) : analogueField e.blockBytes = p := by
  rw [blockBytes_analogue h]
  generalize hb : e.header 3 mode.code ++ 0 :: 0 :: p.bytes = b
  have rawLo : field16 b 10 = p.rawLo % 65536 := by rw [← hb]; exact field16_bytes16 p.rawLo []
  have rawHi : field16 b 12 = p.rawHi % 65536 := by rw [← hb]; exact field16_bytes16 p.rawHi []
  have underMargin : field16 b 14 = p.underMargin % 65536 := by
    rw [← hb]; exact field16_bytes16 p.underMargin []
  have overMargin : field16 b 16 = p.overMargin % 65536 := by
    rw [← hb]; exact field16_bytes16 p.overMargin []
  have ll : thresholdField b 18 = p.ll := thresholdField_of_bytes hp.ll (by
    rw [← hb]; exact field16_bytes16 (p.ll.getD 0xFFFF) [])
  have l : thresholdField b 20 = p.l := thresholdField_of_bytes hp.l (by
    rw [← hb]; exact field16_bytes16 (p.l.getD 0xFFFF) [])
  have h : thresholdField b 22 = p.h := thresholdField_of_bytes hp.h (by
    rw [← hb]; exact field16_bytes16 (p.h.getD 0xFFFF) [])
  have hh : thresholdField b 24 = p.hh := thresholdField_of_bytes hp.hh (by
    rw [← hb]; exact field16_bytes16 (p.hh.getD 0xFFFF) [])
  have deadband : field8 b 26 = p.deadband % 256 := by rw [← hb]; exact byteOf_toNat _
  rw [analogueField, rawLo, rawHi, underMargin, overMargin, ll, l, h, hh, deadband,
    Nat.mod_eq_of_lt hp.rawLo, Nat.mod_eq_of_lt hp.rawHi, Nat.mod_eq_of_lt hp.underMargin,
    Nat.mod_eq_of_lt hp.overMargin, Nat.mod_eq_of_lt hp.deadband]

theorem StalePolicy.code_lt (p : StalePolicy) : p.code < 16 := by
  cases p <;> decide

theorem ColumnMode.code_lt (m : ColumnMode) : m.code < 16 := by
  cases m <;> decide

theorem toNat_lt_16 (v : Bool) : v.toNat < 16 := v.toNat_lt.trans (by decide)

theorem upperNibble_header {e : PointEntry} {cls mode : Nat} (hc : cls < 16) (hm : mode < 16)
    (l : List Byte) : upperNibble (e.header cls mode ++ l) 3 = cls :=
  nibbles_upper hc hm

theorem lowerNibble_header {e : PointEntry} {cls mode : Nat} (hm : mode < 16) (l : List Byte) :
    lowerNibble (e.header cls mode ++ l) 3 = mode :=
  nibbles_lower hm

theorem field8_header_span {e : PointEntry} (hr : InRange e) (cls mode : Nat) (l : List Byte) :
    field8 (e.header cls mode ++ l) 5 = e.span := by
  have hspan := hr.span
  exact (byteOf_toNat _).trans (Nat.mod_eq_of_lt (by split at hspan <;> omega))

/-- The class, display mode and class parameters of a block are those of the entry. -/
theorem classField_block {e : PointEntry} (hr : InRange e) (hf : e.cls.Fits) :
    classField e.blockBytes = some e.cls := by
  have hspan := hr.span
  cases h : e.cls with
  | binary inverted normal =>
    have hnormal : upperNibble e.blockBytes 8 = normal.toNat := by
      rw [blockBytes_binary h]
      exact nibbles_upper (toNat_lt_16 normal) (by decide)
    rw [blockBytes_binary h] at hnormal ⊢
    rw [classField_binary (upperNibble_header (by decide) (by cases inverted <;> decide) _),
      lowerNibble_header (by cases inverted <;> decide), field8_header_span hr, hnormal]
    simp only [h] at hspan
    cases inverted <;> cases normal <;> simp [hspan]
  | double limit disagree =>
    have hdisagree : lowerNibble e.blockBytes 8 = disagree.toNat := by
      rw [blockBytes_double h]
      exact nibbles_lower (toNat_lt_16 disagree)
    have hlimit : field8 e.blockBytes 9 = limit := by
      rw [blockBytes_double h]
      rw [h] at hf
      exact (byteOf_toNat _).trans (Nat.mod_eq_of_lt hf)
    rw [blockBytes_double h] at hdisagree hlimit ⊢
    rw [classField_double (upperNibble_header (by decide) (by decide) _), lowerNibble_header (by decide),
      field8_header_span hr, hdisagree, hlimit]
    simp only [h] at hspan
    cases disagree <;> simp [hspan]
  | analogue mode p =>
    rw [h] at hf
    have hparams := analogueField_block h hf
    rw [blockBytes_analogue h] at hparams ⊢
    rw [classField_analogue (upperNibble_header (by decide) mode.code_lt _),
      lowerNibble_header mode.code_lt, field8_header_span hr, hparams]
    simp only [h] at hspan
    cases mode <;> simp [hspan, ColumnMode.code]

/-- Every block begins with the entry's header. -/
theorem blockBytes_eq_header (e : PointEntry) : ∃ cls mode l, e.blockBytes = e.header cls mode ++ l := by
  cases h : e.cls with
  | binary => exact ⟨_, _, _, blockBytes_binary h⟩
  | double => exact ⟨_, _, _, blockBytes_double h⟩
  | analogue => exact ⟨_, _, _, blockBytes_analogue h⟩

/-- The block of an entry in range describes the same entry, with fresh dynamic fields (R18). -/
theorem entryOfBlock_blockBytes {e : PointEntry} (hr : InRange e) (hlamp : e.firstLamp < 256)
    (hf : e.cls.Fits) : entryOfBlock e.blockBytes = some e.fresh := by
  have hcls := classField_block hr hf
  obtain ⟨cls, mode, l, hblock⟩ := blockBytes_eq_header e
  rw [hblock] at hcls ⊢
  obtain ⟨hlow, hhigh, hindex⟩ := hr.key
  have hpriority16 : e.priority < 16 := by have := hr.priority; omega
  have hkey : keyField (e.header cls mode ++ l) 0 = e.key := keyField_bytes (by omega) (by omega) _
  have hfirst : field8 (e.header cls mode ++ l) 4 = e.firstLamp :=
    (byteOf_toNat _).trans (Nat.mod_eq_of_lt hlamp)
  have hgroup : field8 (e.header cls mode ++ l) 6 = e.group :=
    (byteOf_toNat _).trans (Nat.mod_eq_of_lt (by have := hr.group; omega))
  have hpriority : upperNibble (e.header cls mode ++ l) 7 = e.priority :=
    nibbles_upper hpriority16 e.policy.code_lt
  have hpolicy : stalePolicyOfCode (lowerNibble (e.header cls mode ++ l) 7) = some e.policy :=
    stalePolicyOfCode_eq_some.2 (nibbles_lower e.policy.code_lt).symm
  rw [entryOfBlock, hkey, hgroup, hpriority, hcls, hpolicy, hfirst, field8_header_span hr,
    if_pos ⟨hlow, hhigh, hr.group, hr.priority⟩]
  rfl

/-- An entry that some block describes is described by its own block too (R18). -/
theorem LoadedFrom.blockBytes {b : List Byte} {e : PointEntry} (h : LoadedFrom e.fresh b)
    (hgood : ¬ BadFields b) : ¬ BadFields e.blockBytes ∧ LoadedFrom e.fresh e.blockBytes := by
  have hlamp : e.firstLamp < 256 := h.lamps.1.trans_lt (field8_lt _ _)
  have hentry : entryOfBlock e.blockBytes = some e.fresh :=
    entryOfBlock_blockBytes (e := e.fresh) (h.inRange hgood) hlamp (h.cls_fits hgood)
  exact ⟨fun hbad => by simp [entryOfBlock_eq_none.2 hbad] at hentry, loadedFrom_of_entryOfBlock hentry⟩

end Sys2Proof.Machine
end

section
/-! POINT READ (R18): the dynamic fields of an entry, byte by byte (R200, 11.4.3). -/

namespace Sys2Proof.Machine

/-! ### The data read -/

/-- The data of POINT READ: the block as held, then the dynamic fields. -/
def State.pointData (s : State) (e : PointEntry) : List Byte :=
  e.blockBytes ++ e.dynamicBytes (s.quality e).code (s.isHolder e)

theorem field8_pointData (s : State) (e : PointEntry) (i : Nat) : field8 (s.pointData e) (27 + i) =
    field8 (e.dynamicBytes (s.quality e).code (s.isHolder e)) i := by
  rw [← blockBytes_length e]
  exact field8_append_right _ _ i

theorem field16_pointData (s : State) (e : PointEntry) (i : Nat) : field16 (s.pointData e) (27 + i) =
    field16 (e.dynamicBytes (s.quality e).code (s.isHolder e)) i := by
  rw [field16, field8_pointData, Nat.add_assoc, field8_pointData, field16]

theorem field8_pointData_block (s : State) (e : PointEntry) {i : Nat} (h : i < 27) :
    field8 (s.pointData e) i = field8 e.blockBytes i :=
  field8_append_left (by rwa [blockBytes_length]) _

theorem take_pointData (s : State) (e : PointEntry) : (s.pointData e).take 27 = e.blockBytes :=
  List.take_left' (blockBytes_length e)

theorem pointData_length (s : State) (e : PointEntry) : (s.pointData e).length = 43 := by
  rw [State.pointData, List.length_append, blockBytes_length]
  rfl

/-! ### The fields of other classes, sent as 0 -/

theorem pointData_binary_zero {s : State} {e : PointEntry} {inverted normal : Bool}
    (h : e.cls = .binary inverted normal) : lowerNibble (s.pointData e) 8 = 0 ∧
      ∀ i, 9 ≤ i → i < 27 → field8 (s.pointData e) i = 0 := by
  have hblock := blockBytes_binary h
  refine ⟨?_, fun i hlow hhigh => ?_⟩
  · rw [lowerNibble, field8_pointData_block s e (by decide), hblock]
    exact nibbles_lower (by decide)
  · rw [field8_pointData_block s e hhigh, hblock]
    obtain ⟨j, rfl⟩ := Nat.exists_eq_add_of_le' hlow
    exact field8_replicate_zero 18 j

theorem pointData_double_zero {s : State} {e : PointEntry} {limit : Nat} {disagree : Bool}
    (h : e.cls = .double limit disagree) : upperNibble (s.pointData e) 8 = 0 ∧
      ∀ i, 10 ≤ i → i < 27 → field8 (s.pointData e) i = 0 := by
  have hblock := blockBytes_double h
  refine ⟨?_, fun i hlow hhigh => ?_⟩
  · rw [upperNibble, field8_pointData_block s e (by decide), hblock]
    exact nibbles_upper (by decide) (toNat_lt_16 disagree)
  · rw [field8_pointData_block s e hhigh, hblock]
    obtain ⟨j, rfl⟩ := Nat.exists_eq_add_of_le' hlow
    exact field8_replicate_zero 17 j

theorem pointData_analogue_zero {s : State} {e : PointEntry} (h : e.isAnalogue = true) :
    field8 (s.pointData e) 8 = 0 ∧ field8 (s.pointData e) 9 = 0 := by
  unfold PointEntry.isAnalogue at h
  split at h
  next mode p hcls =>
    rw [field8_pointData_block s e (by decide), field8_pointData_block s e (by decide),
      blockBytes_analogue hcls]
    exact ⟨rfl, rfl⟩
  next => cases h

/-! ### The flags -/

theorem bitAt_eq (n : Nat) (b : Bool) : bitAt n b = 2 ^ n * b.toNat := by
  cases b <;> simp [bitAt]

/-- The bits of a byte of seven flags. -/
theorem flags_bits {f : Nat} {a b c d e g h : Bool}
    (hf : f = (bitAt 0 a + bitAt 1 b + bitAt 2 c + bitAt 3 d + bitAt 4 e + bitAt 5 g + bitAt 6 h) % 256) :
    f < 128 ∧ (f / 1 % 2 = 1 ↔ a = true) ∧ (f / 2 % 2 = 1 ↔ b = true) ∧ (f / 4 % 2 = 1 ↔ c = true) ∧
      (f / 8 % 2 = 1 ↔ d = true) ∧ (f / 16 % 2 = 1 ↔ e = true) ∧ (f / 32 % 2 = 1 ↔ g = true) ∧
      (f / 64 % 2 = 1 ↔ h = true) := by
  simp only [bitAt_eq] at hf
  simp only [← Bool.toNat_eq_one]
  have := a.toNat_le
  have := b.toNat_le
  have := c.toNat_le
  have := d.toNat_le
  have := e.toNat_le
  have := g.toNat_le
  have := h.toNat_le
  omega

theorem isHolder_iff {s : State} {e : PointEntry} : s.isHolder e = true ↔
    ∃ (g : Nat) (hg : g < 16), e.group = g + 1 ∧ s.groups[g].holder = some e.key := by
  unfold State.isHolder State.group
  cases hgroup : e.group with
  | zero => simp
  | succ n =>
    by_cases hn : n < 16
    · simp [hn]
    · simp [hn]

/-- The flags byte of an entry, bit by bit. -/
theorem pointData_flags (s : State) (e : PointEntry) :
    field8 (s.pointData e) 27 < 128 ∧
    (field8 (s.pointData e) 27 / 1 % 2 = 1 ↔ e.raw.isSome) ∧
    (field8 (s.pointData e) 27 / 2 % 2 = 1 ↔ e.decoded.isSome) ∧
    (field8 (s.pointData e) 27 / 4 % 2 = 1 ↔ e.itemInvalid = true) ∧
    (field8 (s.pointData e) 27 / 8 % 2 = 1 ↔ e.isAnalogue = true ∧ e.sensorFault = true) ∧
    (field8 (s.pointData e) 27 / 16 % 2 = 1 ↔ e.alarm.isSome) ∧
    (field8 (s.pointData e) 27 / 32 % 2 = 1 ↔ ∃ a, e.alarm = some a ∧ a.raised.isSome) ∧
    (field8 (s.pointData e) 27 / 64 % 2 = 1 ↔ ∃ (g : Nat) (hg : g < 16),
      e.group = g + 1 ∧ s.groups[g].holder = some e.key) := by
  have hraised : (e.alarm.bind (·.raised)).isSome = true ↔ ∃ a, e.alarm = some a ∧ a.raised.isSome := by
    cases e.alarm <;> simp
  rw [← Bool.and_eq_true, ← hraised, ← isHolder_iff]
  exact flags_bits ((field8_pointData s e 0).trans (byteOf_toNat _))

/-! ### The value -/

theorem pointData_raw (s : State) (e : PointEntry) :
    field16 (s.pointData e) 28 = e.raw.getD 0 % 65536 :=
  (field16_pointData s e 1).trans (field16_bytes16 _ [])

/-- The value field of an entry (R200, 11.4.3). -/
def decodedValue : Option Decoded → Nat
  | some (.state one) => one.toNat
  | some (.position p) => p.code
  | some (.level fill _) => fill
  | none => 0

/-- The lit field of an entry (R200, 11.4.3). -/
def decodedLit : Option Decoded → Nat
  | some (.level _ lit) => lit
  | _ => 0

theorem pointData_value (s : State) (e : PointEntry) :
    field16 (s.pointData e) 30 = decodedValue e.decoded % 65536 :=
  (field16_pointData s e 3).trans (field16_bytes16 _ [])

theorem pointData_lit (s : State) (e : PointEntry) :
    field8 (s.pointData e) 32 = decodedLit e.decoded % 256 :=
  (field8_pointData s e 5).trans (byteOf_toNat _)

theorem pointData_band (s : State) (e : PointEntry) :
    field8 (s.pointData e) 33 = if e.isAnalogue = true then e.band.code else 0 := by
  refine ((field8_pointData s e 6).trans (byteOf_toNat _)).trans ?_
  change (if e.isAnalogue = true then e.band.code else 0) % 256 = _
  cases e.band <;> split <;> rfl

theorem pointData_quality (s : State) (e : PointEntry) :
    field8 (s.pointData e) 35 = (s.quality e).code := by
  refine ((field8_pointData s e 8).trans (byteOf_toNat _)).trans ?_
  cases s.quality e <;> rfl

theorem pointData_travel_double {s : State} {e : PointEntry} {limit : Nat} {disagree : Bool}
    (h : e.cls = .double limit disagree) : field8 (s.pointData e) 34 = e.travel % 256 := by
  refine ((field8_pointData s e 7).trans (byteOf_toNat _)).trans ?_
  rw [h]
  rfl

theorem pointData_travel_other {s : State} {e : PointEntry}
    (h : ∀ limit disagree, e.cls ≠ .double limit disagree) : field8 (s.pointData e) 34 = 0 := by
  refine ((field8_pointData s e 7).trans (byteOf_toNat _)).trans ?_
  cases hcls : e.cls with
  | double limit disagree => exact absurd hcls (h limit disagree)
  | _ => rfl

/-! ### The alarm record -/

/-- The bytes of an alarm record, all 0 where it is absent. -/
def alarmBytes (a : Option AlarmRecord) : List Byte :=
  let record := a.getD .fresh
  let stamp := a.bind (·.raised)
  [byteOf record.state.code, byteOf (causeCode record.cause), record.generation] ++
    bytes16 ((stamp.map (·.cycle)).getD 0) ++ bytes16 ((stamp.map (·.offset)).getD 0)

/-- The alarm record's bytes follow the first thirty-six. -/
theorem pointData_eq_append (s : State) (e : PointEntry) :
    ∃ p, p.length = 36 ∧ s.pointData e = p ++ alarmBytes e.alarm := by
  refine ⟨e.blockBytes ++ (e.dynamicBytes (s.quality e).code (s.isHolder e)).take 9, ?_, ?_⟩
  · rw [List.length_append, blockBytes_length]
    rfl
  · rw [List.append_assoc]
    rfl

theorem field8_pointData_alarm (s : State) (e : PointEntry) (i : Nat) :
    field8 (s.pointData e) (36 + i) = field8 (alarmBytes e.alarm) i := by
  obtain ⟨p, hlength, hdata⟩ := pointData_eq_append s e
  rw [hdata, ← hlength]
  exact field8_append_right _ _ i

theorem field16_pointData_alarm (s : State) (e : PointEntry) (i : Nat) :
    field16 (s.pointData e) (36 + i) = field16 (alarmBytes e.alarm) i := by
  rw [field16, field8_pointData_alarm, Nat.add_assoc, field8_pointData_alarm, field16]

theorem pointData_no_alarm {s : State} {e : PointEntry} (h : e.alarm = none) {i : Nat} (hi : 36 ≤ i) :
    field8 (s.pointData e) i = 0 := by
  obtain ⟨j, rfl⟩ := Nat.exists_eq_add_of_le hi
  rw [field8_pointData_alarm, h]
  exact field8_replicate_zero 7 j

theorem pointData_alarm {s : State} {e : PointEntry} {a : AlarmRecord} (h : e.alarm = some a) :
    field8 (s.pointData e) 36 = a.state.code ∧ field8 (s.pointData e) 37 = causeCode a.cause ∧
    (s.pointData e)[38]? = some a.generation := by
  refine ⟨?_, ?_, ?_⟩
  · refine (field8_pointData_alarm s e 0).trans ?_
    rw [h]
    cases hstate : a.state <;> simp [alarmBytes, hstate] <;> rfl
  · refine (field8_pointData_alarm s e 1).trans ?_
    rw [h]
    cases hcause : a.cause with
    | none => simp [alarmBytes, hcause]; rfl
    | some c => cases c <;> simp [alarmBytes, hcause] <;> rfl
  · obtain ⟨p, hlength, hdata⟩ := pointData_eq_append s e
    rw [hdata, List.getElem?_append_right (by omega), hlength, h]
    rfl

theorem pointData_stamp {s : State} {e : PointEntry} {a : AlarmRecord} (h : e.alarm = some a) :
    field16 (s.pointData e) 39 = ((a.raised.map (·.cycle)).getD 0) % 65536 ∧
      field16 (s.pointData e) 41 = ((a.raised.map (·.offset)).getD 0) % 65536 := by
  constructor
  · refine (field16_pointData_alarm s e 3).trans ?_
    rw [h]
    exact field16_bytes16 _ []
  · refine (field16_pointData_alarm s e 5).trans ?_
    rw [h]
    exact field16_bytes16 _ []

/-! ### The command -/

/-- Settles O26: the block as held, then the dynamic fields. -/
theorem pointReadReportsTheEntry : Obligations.PointReadReportsTheEntry := by
  intro h b s ha hlen
  cases hk : s.point (blockKey b) with
  | none =>
    obtain ⟨t, hexec, hans⟩ := arriveCommand_refused ha (code := 0x22) (r := .notFound) (data := [])
      rfl hlen (by
        change takePointRead b s.received = _
        simp only [takePointRead, show s.received.point (keyField b 0) = none from hk]
        rfl)
    exact ⟨t, hexec, fun _ => hans, fun e he => by simp at he⟩
  | some e =>
    obtain ⟨t, hexec, hans⟩ := arriveCommand_refused ha (code := 0x22) (r := .ok)
      (data := s.pointData e) rfl hlen (by
        change takePointRead b s.received = _
        simp only [takePointRead, show s.received.point (keyField b 0) = some e from hk]
        rfl)
    refine ⟨t, hexec, fun hn => by simp at hn, fun e' he' => ?_⟩
    cases he'
    obtain ⟨hsmall, hraw, hdecoded, hinvalid, hfault, halarm, hraised, hholder⟩ := pointData_flags s e
    have hvalue := pointData_value s e
    have hlit := pointData_lit s e
    refine ⟨s.pointData e, hans, pointData_length s e, fun block _ hgood hfrom => ?_,
      fun _ _ => pointData_binary_zero, fun _ _ => pointData_double_zero, pointData_analogue_zero,
      hsmall, hraw, hdecoded, hinvalid, hfault, halarm, hraised, hholder, pointData_raw s e,
      fun one hd => ?_, fun p hd => ?_, fun f l hd => ?_, fun hd => ?_, fun hd => ?_,
      pointData_band s e, fun _ _ => pointData_travel_double, pointData_travel_other,
      pointData_quality s e, fun hn i hi _ => pointData_no_alarm hn hi, fun a hsome => ?_⟩
    · rw [take_pointData]
      exact hfrom.blockBytes hgood
    · rw [hvalue, hd]
      cases one <;> rfl
    · rw [hvalue, hd]
      cases p <;> rfl
    · rw [hvalue, hlit, hd]
      exact ⟨rfl, rfl⟩
    · rw [hvalue, hd]
      rfl
    · rw [hlit]
      unfold decodedLit
      split
      next f l hlevel => exact absurd hlevel (hd f l)
      next => rfl
    · obtain ⟨hstate, hcause, hgeneration⟩ := pointData_alarm (s := s) hsome
      obtain ⟨hcycle, hoffset⟩ := pointData_stamp (s := s) hsome
      refine ⟨hstate, fun c hc => ?_, fun hn => ?_, hgeneration, fun hn => ?_, fun st hst => ?_⟩
      · rw [hcause, hc]
        rfl
      · rw [hcause, hn]
        rfl
      · rw [hcycle, hoffset, hn]
        exact ⟨rfl, rfl⟩
      · rw [hcycle, hoffset, hst]
        exact ⟨rfl, rfl⟩

end Sys2Proof.Machine
end

section
/-! What leaves the queues standing: every operation that touches the Event Queue and the UNMAPPED count alone
among the queues and counts of `QueuesFit`, and keeps them within their ranges. -/

namespace Sys2Proof.Machine

/-! ### Queues that stand -/

/-- The Event Queue and the lost count stay within their ranges (R185, R188). -/
def ReportsFit (r : Reports) : Prop := r.queue.length ≤ 48 ∧ r.lost ≤ 255

/-- The Loop Port and the Command Unit stay as they are, a sweep goes on or there is none, HOLD stays in effect
or not, and the UNMAPPED count and the Event Queue do not leave their ranges. -/
structure QueuesStand (s t : State) : Prop where
  port : t.port = s.port
  commands : t.commands = s.commands
  sweep : t.lamps.sweep.isSome = s.lamps.sweep.isSome
  holdEnds : t.lamps.holdEnds = s.lamps.holdEnds
  unmapped : s.unmapped ≤ 65535 → t.unmapped ≤ 65535
  reports : ReportsFit s.reports → ReportsFit t.reports

namespace QueuesStand

theorem refl (s : State) : QueuesStand s s := ⟨rfl, rfl, rfl, rfl, id, id⟩

theorem trans {s t u : State} (h : QueuesStand s t) (h' : QueuesStand t u) : QueuesStand s u where
  port := h'.port.trans h.port
  commands := h'.commands.trans h.commands
  sweep := h'.sweep.trans h.sweep
  holdEnds := h'.holdEnds.trans h.holdEnds
  unmapped hs := h'.unmapped (h.unmapped hs)
  reports hs := h'.reports (h.reports hs)

theorem of_eq {s t : State} (hp : t.port = s.port) (hc : t.commands = s.commands)
    (hw : t.lamps.sweep = s.lamps.sweep) (hh : t.lamps.holdEnds = s.lamps.holdEnds)
    (hu : t.unmapped = s.unmapped) (hr : t.reports = s.reports) : QueuesStand s t :=
  ⟨hp, hc, by rw [hw], hh, fun h => hu.symm ▸ h, fun h => hr.symm ▸ h⟩

theorem foldl {α : Type} {f : State → α → State} (h : ∀ s a, QueuesStand s (f s a)) (l : List α)
    (s : State) : QueuesStand s (l.foldl f s) :=
  foldl_related QueuesStand refl (fun _ _ _ => trans) f h l s

theorem ite {p : Prop} [Decidable p] {s t u : State} (ht : QueuesStand s t) (hu : QueuesStand s u) :
    QueuesStand s (if p then t else u) := by
  split
  · exact ht
  · exact hu

end QueuesStand

/-! ### Records, causes and the lamps -/

theorem record_queuesStand (s : State) (d : RecordData) : QueuesStand s (s.record d) :=
  ⟨rfl, rfl, rfl, rfl, id, Reports.record_fits _ _ _⟩

theorem occur_queuesStand (s : State) (c : Condition) : QueuesStand s (s.occur c) :=
  ⟨rfl, rfl, rfl, rfl, id, Reports.occur_fits _ _ _⟩

theorem advanceTo_queuesStand (s : State) (us : Nat) : QueuesStand s (s.advanceTo us) :=
  .of_eq rfl rfl rfl rfl rfl rfl

theorem mapChannels_queuesStand (s : State) (f : Nat → Channel → Channel) :
    QueuesStand s (s.mapChannels f) := .of_eq rfl rfl rfl rfl rfl rfl

theorem settleLamps_queuesStand (s : State) : QueuesStand s s.settleLamps :=
  mapChannels_queuesStand s _

/-- What leaves the queues standing leaves them so with the lamps settled after it. -/
theorem QueuesStand.settled {s t : State} (h : QueuesStand s t) : QueuesStand s t.settleLamps :=
  h.trans (settleLamps_queuesStand t)

theorem sense_queuesStand (s : State) (expects : Nat → Channel → Option Bool) (currents : BitVec 256) :
    QueuesStand s (s.sense expects currents) :=
  (mapChannels_queuesStand s _).trans
    (.foldl (fun u _ => (record_queuesStand u _).trans (occur_queuesStand _ _)) _ _)

theorem senseTimer_queuesStand (s : State) (currents : BitVec 256) :
    QueuesStand s (s.senseTimer currents) := by
  have h : QueuesStand s { s with lamps := { s.lamps with
      senseDue := s.lamps.senseDue + Config.senseInterval } } := .of_eq rfl rfl rfl rfl rfl rfl
  exact .ite (h.trans (sense_queuesStand _ _ _)) h

theorem judgeStep_queuesStand (s : State) (w : Sweep) (samples : BitVec 16) :
    QueuesStand s (s.judgeStep w samples) :=
  (mapChannels_queuesStand s _).trans (.foldl (fun u _ => record_queuesStand u _) _ _)

theorem followLampTest_queuesStand (s : State) : QueuesStand s s.followLampTest :=
  ⟨rfl, rfl, Option.isSome_map, rfl, id, id⟩

/-! ### The Alarm Unit -/

theorem transition_queuesStand (s : State) (e : PointEntry) (old new : AlarmRecord) (t : Transition)
    (c : Option Cause) : QueuesStand s (s.transition e old new t c) :=
  ⟨rfl, rfl, rfl, rfl, id, Reports.record_fits _ _ _⟩

theorem evaluatePoint_queuesStand (s : State) (k : Key) : QueuesStand s (s.evaluatePoint k) := by
  unfold State.evaluatePoint
  repeat' split
  · rw [applyResult_cases]
    split
    · exact .refl s
    · exact transition_queuesStand ..
  · exact .refl s
  · exact .refl s

theorem acknowledge_queuesStand (s : State) (k : Key) : QueuesStand s (s.acknowledge k) := by
  unfold State.acknowledge
  repeat' split
  · exact transition_queuesStand ..
  all_goals exact .refl s

theorem retire_queuesStand (s : State) (e : PointEntry) : QueuesStand s (s.retire e) := by
  unfold State.retire
  repeat' split
  · exact .refl s
  · exact ⟨rfl, rfl, rfl, rfl, id, Reports.record_fits _ _ _⟩
  · exact .refl s

theorem acknowledgeAll_queuesStand (s : State) (scope : PointEntry → Bool) :
    QueuesStand s (s.acknowledgeAll scope) :=
  (QueuesStand.foldl acknowledge_queuesStand _ s).settled

theorem qualityReturn_queuesStand (s before : State) (scope : PointEntry → Bool) :
    QueuesStand s (s.qualityReturn before scope) :=
  .foldl evaluatePoint_queuesStand _ s

/-! ### Telemetry and markers -/

theorem refreshOutstation_queuesStand (s : State) (o : OutstationEntry) (named : Key) :
    QueuesStand s (s.refreshOutstation o named) := by
  have h (l : List OutstationEntry) : QueuesStand s { s with outstations := l } :=
    .of_eq rfl rfl rfl rfl rfl rfl
  exact .ite ((h _).trans (qualityReturn_queuesStand _ s _)) (h _)

theorem withPoints_queuesStand (s : State) (l : List PointEntry) :
    QueuesStand s { s with points := l } := .of_eq rfl rfl rfl rfl rfl rfl

theorem takeValid_queuesStand (s : State) (k : Key) (raw : Nat) : QueuesStand s (s.takeValid k raw) := by
  have h := withPoints_queuesStand s (modifyPoint k (·.store raw) s.points)
  unfold State.takeValid
  dsimp only
  repeat' split
  · exact h.trans (evaluatePoint_queuesStand _ k)
  · exact h
  · exact h

/-- The UNMAPPED count saturates at 65535 (R28). -/
theorem countUnmapped_queuesStand (s : State) : QueuesStand s s.countUnmapped := by
  refine ⟨rfl, rfl, rfl, rfl, fun h => ?_, id⟩
  change saturate 65535 s.unmapped ≤ 65535
  unfold saturate
  split <;> omega

theorem takeItem_queuesStand (s : State) (i : Item) : QueuesStand s (s.takeItem i) := by
  unfold State.takeItem
  split
  · exact countUnmapped_queuesStand s
  split
  · exact countUnmapped_queuesStand s
  next o _ =>
    have h := refreshOutstation_queuesStand s o ⟨i.outstation, i.index⟩
    dsimp only
    repeat' split
    · exact h.trans (countUnmapped_queuesStand _)
    · exact h.trans (withPoints_queuesStand _ _)
    · exact h.trans (takeValid_queuesStand _ _ _)

theorem takePoints_queuesStand (s : State) (body : List Byte) : QueuesStand s (s.takePoints body) :=
  (QueuesStand.foldl takeItem_queuesStand _ s).settled

theorem withOutstations_queuesStand (s : State) (limit : Nat) (l : List OutstationEntry) :
    QueuesStand s { s with staleLimit := limit, outstations := l } := .of_eq rfl rfl rfl rfl rfl rfl

theorem takeOutstation_queuesStand (s : State) (body : List Byte) :
    QueuesStand s (s.takeOutstation body) := by
  have h := withOutstations_queuesStand s s.staleLimit
  unfold State.takeOutstation
  dsimp only
  repeat' split
  · exact .refl s
  · exact ((h _).trans (qualityReturn_queuesStand _ s _)).settled
  · exact (h _).settled
  · exact .refl s

theorem setStaleLimit_queuesStand (s : State) (limit : Nat) : QueuesStand s (s.setStaleLimit limit) :=
  ((withOutstations_queuesStand s limit _).trans (qualityReturn_queuesStand _ s _)).settled

theorem advanceTravel_queuesStand (s : State) (k : Key) : QueuesStand s (s.advanceTravel k) := by
  have h := withPoints_queuesStand s
    (modifyPoint k (fun e => { e with travel := e.travel + 1 }) s.points)
  unfold State.advanceTravel
  dsimp only
  repeat' split
  · exact h.trans (evaluatePoint_queuesStand _ k)
  · exact h
  · exact h

theorem advanceTravels_queuesStand (s arrival : State) : QueuesStand s (s.advanceTravels arrival) :=
  .foldl advanceTravel_queuesStand _ s

theorem countSilence_queuesStand (s : State) : QueuesStand s s.countSilence :=
  (withOutstations_queuesStand s s.staleLimit _).trans (.foldl (fun u _ => occur_queuesStand u _) _ _)

theorem withSupervisor_queuesStand (s : State) (v : Supervisor) :
    QueuesStand s { s with supervisor := v } := .of_eq rfl rfl rfl rfl rfl rfl

theorem realign_queuesStand (s : State) : QueuesStand s s.realign := .of_eq rfl rfl rfl rfl rfl rfl

theorem judgeMarker_queuesStand (s arrival : State) (sync : Bool) :
    QueuesStand s (s.judgeMarker arrival sync) := by
  have h := withSupervisor_queuesStand s
  unfold State.judgeMarker
  dsimp only
  repeat' split
  · exact h _
  · exact (h _).trans (qualityReturn_queuesStand _ _ _)
  · exact (h _).trans (occur_queuesStand _ _)
  · exact h _
  · exact (h _).trans (realign_queuesStand _)
  · exact h _

theorem takeCycle_queuesStand (s : State) (body : List Byte) : QueuesStand s (s.takeCycle body) := by
  unfold State.takeCycle State.acceptMarker
  refine .ite ?_ (.refl s)
  have h := (withSupervisor_queuesStand s (s.supervisor.record (field16 body 0) s.now)).trans
    (advanceTravels_queuesStand _ s)
  exact ((h.trans (countSilence_queuesStand _)).trans (judgeMarker_queuesStand _ _ _)).settled

theorem takeTelemetry_queuesStand (s : State) (f : Frame) : QueuesStand s (s.takeTelemetry f) :=
  .ite (takeCycle_queuesStand s _) (.ite (takePoints_queuesStand s _) (takeOutstation_queuesStand s _))

/-! ### Loop time -/

theorem resync_queuesStand (s : State) : QueuesStand s s.resync := by
  have h : QueuesStand s (State.realign { s with supervisor := s.supervisor.unsync }) :=
    .of_eq rfl rfl rfl rfl rfl rfl
  exact (QueuesStand.ite (h.trans (qualityReturn_queuesStand _ s _)) h).settled

theorem lateBoundExpires_queuesStand (s : State) (reference : Nat) :
    QueuesStand s (s.lateBoundExpires reference) := by
  have h := withSupervisor_queuesStand s
  unfold State.lateBoundExpires
  dsimp only
  split
  · exact .ite ((h _).trans (occur_queuesStand _ _)).settled (h _)
  · exact h _

theorem takeLateBound_queuesStand (s : State) : QueuesStand s s.takeLateBound := by
  unfold State.takeLateBound
  split
  · exact .refl s
  · exact .refl s
  · exact (advanceTo_queuesStand s _).trans (lateBoundExpires_queuesStand _ _)

theorem takePhaseEnd_queuesStand (s : State) (c : Cadence) (currents : BitVec 256) :
    QueuesStand s (s.takePhaseEnd c currents) := by
  unfold State.takePhaseEnd
  split
  next ended t _ =>
    have h : QueuesStand (s.advanceTo (1000 * t)) ((s.advanceTo (1000 * t)).endPhase c ended currents) :=
      (QueuesStand.ite (sense_queuesStand _ _ currents) (.refl _)).trans (.of_eq rfl rfl rfl rfl rfl rfl)
    exact (advanceTo_queuesStand s _).trans h
  next => exact .refl s

theorem takeSenseTimer_queuesStand (s : State) (currents : BitVec 256) :
    QueuesStand s (s.takeSenseTimer currents) :=
  (advanceTo_queuesStand s _).trans (senseTimer_queuesStand _ _)

theorem takeStarted_queuesStand (s : State) : QueuesStand s s.takeStarted := by
  unfold State.takeStarted
  split
  · exact ⟨rfl, rfl, rfl, rfl, id, Reports.record_fits _ _ _⟩
  · exact .refl s

/-! ### Panel lines -/

theorem modifyLine_queuesStand (s : State) (i : Fin 8) (f : Line → Line) :
    QueuesStand s (s.modifyLine i f) := .of_eq rfl rfl rfl rfl rfl rfl

theorem press_queuesStand (s : State) (i : Fin 8) (l : Line) : QueuesStand s (s.press i l) := by
  have h := record_queuesStand s (.key i.val l.function l.group)
  unfold State.press State.performKey
  repeat' split
  · exact .refl s
  · exact h.trans (acknowledgeAll_queuesStand _ _)
  · exact h.trans (acknowledgeAll_queuesStand _ _)
  · exact h.trans (.of_eq rfl rfl rfl rfl rfl rfl)
  all_goals exact h

theorem debounceExpires_queuesStand (s : State) (i : Fin 8) : QueuesStand s (s.debounceExpires i) := by
  have h := modifyLine_queuesStand s i
  unfold State.debounceExpires
  dsimp only
  repeat' split
  · exact (h _).trans (followLampTest_queuesStand _)
  · exact h _
  · exact ((h _).trans (press_queuesStand _ _ _)).trans (followLampTest_queuesStand _)
  · exact (h _).trans (followLampTest_queuesStand _)

theorem takeDebounce_queuesStand (s : State) (i : Fin 8) : QueuesStand s (s.takeDebounce i) := by
  unfold State.takeDebounce
  split
  · exact (advanceTo_queuesStand s _).trans (debounceExpires_queuesStand _ i)
  · exact .refl s

theorem setDebounce_queuesStand (s : State) (ms : Nat) : QueuesStand s (s.setDebounce ms) :=
  .of_eq rfl rfl rfl rfl rfl rfl

theorem setLine_queuesStand (s : State) (i : Fin 8) (f : LineSetting) (debounce : Nat) :
    QueuesStand s (s.setLine i f debounce) := by
  have h := (modifyLine_queuesStand s i (·.configure f s.now)).trans (followLampTest_queuesStand _)
  exact (h.trans (setDebounce_queuesStand _ debounce)).trans
    (.foldl (fun u j => .ite (debounceExpires_queuesStand u j) (.refl u)) _ _)

/-! ### The tables -/

theorem insertEntry_queuesStand (s : State) (e : PointEntry) : QueuesStand s (s.insertEntry e) := by
  rw [insertEntry_eq]
  exact .of_eq rfl rfl rfl rfl rfl rfl

theorem loadEntry_queuesStand (s : State) (e : PointEntry) : QueuesStand s (s.loadEntry e) := by
  unfold State.loadEntry
  split
  · exact (retire_queuesStand s _).trans (.of_eq rfl rfl rfl rfl rfl rfl)
  · exact insertEntry_queuesStand s e

theorem dropEntry_queuesStand (s : State) (e : PointEntry) : QueuesStand s (s.dropEntry e) :=
  (retire_queuesStand s e).trans (.of_eq rfl rfl rfl rfl rfl rfl)

theorem clearTable_queuesStand (s : State) : QueuesStand s s.clearTable :=
  ⟨rfl, rfl, rfl, rfl, id, Reports.record_fits _ _ _⟩

/-! ### Conditions -/

theorem raiseConditions_queuesStand (s : State) (set : Byte) : QueuesStand s (s.raiseConditions set) :=
  .foldl (fun u _ => .ite (occur_queuesStand u _) (.refl u)) _ s

/-- Clearing EVENT_LOSS makes the lost count 0, and nothing else of the queues changes (R194). -/
theorem clearConditions_queuesStand (s : State) (set : Byte) : QueuesStand s (s.clearConditions set) := by
  have h : QueuesStand s { s with reports := s.reports.clear set } := by
    refine ⟨rfl, rfl, rfl, rfl, id, fun ⟨hq, hl⟩ => ⟨hq, ?_⟩⟩
    change (if _ then 0 else s.reports.lost) ≤ 255
    split <;> omega
  exact h.trans (.foldl (fun u _ => .ite (occur_queuesStand u _) (.refl u)) _ _)

end Sys2Proof.Machine
end

section
/-! The ranges of the queues and counts as an invariant of every step (R28, R89, R151, R158, R159, R165, R166,
R173, R183, R185, R188): the operations that move a queue or a count, and the walk from them to the step. -/

namespace Sys2Proof.Machine

theorem saturate_le {limit n : Nat} (h : n ≤ limit) : saturate limit n ≤ limit := by
  unfold saturate
  split <;> omega

/-- The reply slots in use: queued replies and reserved slots (R173). -/
def CommandUnit.used (u : CommandUnit) : Nat := u.replies.length + u.reserved

theorem CommandUnit.hasRoom_iff (u : CommandUnit) : u.hasRoom = true ↔ u.used < 4 :=
  decide_eq_true_iff

namespace QueuesFit

variable {s t : State} (h : QueuesFit s)
include h

theorem stand (hs : QueuesStand s t) : QueuesFit t where
  replies := by rw [hs.commands]; exact h.replies
  reserved := by rw [hs.commands, hs.sweep]; exact h.reserved
  exclusive := by rw [hs.sweep, hs.holdEnds]; exact h.exclusive
  fifo := by rw [hs.port]; exact h.fifo
  localWait := by rw [hs.port]; exact h.localWait
  frameErrors := by rw [hs.port]; exact h.frameErrors
  badRun := by rw [hs.port]; exact h.badRun
  returned := by rw [hs.port]; exact h.returned
  foreign := by rw [hs.port]; exact h.foreign
  forwardDrops := by rw [hs.port]; exact h.forwardDrops
  dropped := by rw [hs.commands]; exact h.dropped
  unmapped := hs.unmapped h.unmapped
  events := (hs.reports ⟨h.events, h.lost⟩).1
  lost := (hs.reports ⟨h.events, h.lost⟩).2
  passOnly := by rw [hs.port]; exact h.passOnly
  station := by rw [hs.port]; exact h.station

/-! ### The Loop Port -/

theorem withReceiver (r : Receiver) : QueuesFit (s.withReceiver r) := { h with }

theorem countFrameError : QueuesFit s.countFrameError := by
  have counted : QueuesFit { s with port := { s.port with
      frameErrors := saturate 65535 s.port.frameErrors
      badRun := saturate Config.badRunLimit s.port.badRun } } :=
    { h with frameErrors := saturate_le h.frameErrors, badRun := saturate_le h.badRun }
  unfold State.countFrameError
  dsimp only
  repeat' split
  · exact counted.stand (occur_queuesStand _ _)
  · exact counted
  · exact h

theorem frameError : QueuesFit s.frameError := (h.withReceiver .hunting).countFrameError

theorem forward (f : Frame) : QueuesFit (s.forward f) := by
  unfold State.forward
  repeat' split
  next hroom =>
    have hfifo : (s.port.fifo ++ [f]).length ≤ 4 := by
      rw [List.length_append, List.length_singleton]
      exact hroom
    exact { h with fifo := hfifo }
  · have dropped : QueuesFit { s with port := { s.port with
        forwardDrops := saturate 65535 s.port.forwardDrops } } :=
      { h with forwardDrops := saturate_le h.forwardDrops }
    exact dropped.stand (occur_queuesStand _ _)
  · exact h

theorem received : QueuesFit s.received := by
  have hrun : s.received.port.badRun ≤ 8 := by
    change (if _ then 0 else s.port.badRun) ≤ 8
    split
    · omega
    · exact h.badRun
  exact { h with badRun := hrun }

theorem countReturned : QueuesFit s.countReturned := { h with returned := saturate_le h.returned }

theorem countForeign : QueuesFit s.countForeign := { h with foreign := saturate_le h.foreign }

theorem takeTruncated : QueuesFit s.takeTruncated := by
  unfold State.takeTruncated
  split
  · exact (h.stand (advanceTo_queuesStand s _)).frameError
  · exact h

theorem startBit : QueuesFit s.startBit := by
  unfold State.startBit
  dsimp only
  repeat' split
  · exact h.takeTruncated
  · exact h.withReceiver _
  · exact h.withReceiver _

theorem takeTransmissionEnd : QueuesFit s.takeTransmissionEnd := by
  unfold State.takeTransmissionEnd
  split
  · exact { h with }
  · exact h

/-! ### The egress arbiter (R166) -/

theorem transmit (f : Frame) : QueuesFit (s.transmit f) := { h with }

theorem localServed : QueuesFit s.localServed := { h with localWait := Nat.zero_le 8 }

theorem grantLocal : QueuesFit s.grantLocal := by
  unfold State.grantLocal
  split
  next f rest hreplies =>
    have hroom : rest.length + s.commands.reserved ≤ 4 := by
      have := h.replies
      rw [hreplies, List.length_cons] at this
      omega
    have freed : QueuesFit { s with commands := { s.commands with replies := rest } } :=
      { h with replies := hroom }
    exact freed.localServed.transmit f
  next =>
    split
    · exact h
    · have hevents : (s.reports.queue.drop Config.recordsPerFrame).length ≤ 48 := by
        rw [List.length_drop]
        exact (Nat.sub_le ..).trans h.events
      have sent : QueuesFit { s with reports := { s.reports with
          queue := s.reports.queue.drop Config.recordsPerFrame } } := { h with events := hevents }
      exact sent.localServed.transmit _

/-- A through frame is granted past a waiting local frame at most eight times in a row. -/
theorem grantThrough {f : Frame} {rest : List Frame} (hfifo : s.port.fifo = f :: rest)
    (hwait : s.port.localWait < 8 ∨ ¬ s.localWaits) : QueuesFit (s.grantThrough f rest) := by
  have hrest : rest.length ≤ 4 := by
    have := h.fifo
    rw [hfifo, List.length_cons] at this
    omega
  have hcount : (if s.localWaits then s.port.localWait + 1 else s.port.localWait) ≤ 8 := by
    have := h.localWait
    split
    next hlocal => exact hwait.elim id fun hn => absurd hlocal hn
    next => exact this
  have begun : QueuesFit { s with port := { s.port with
      fifo := rest
      localWait := if s.localWaits then s.port.localWait + 1 else s.port.localWait } } :=
    { h with fifo := hrest, localWait := hcount }
  exact begun.transmit f

theorem granted : QueuesFit s.granted := by
  unfold State.granted
  split
  · exact h
  split
  next hfifo =>
    split
    next hwait => exact h.grantThrough hfifo hwait
    next => exact h.grantLocal
  next =>
    split
    · exact h.grantLocal
    · exact h

/-! ### Reply slots, HOLD and the prove sweep -/

theorem dropCommand : QueuesFit s.dropCommand := by
  have dropped : QueuesFit { s with commands := { s.commands with
      dropped := saturate 255 s.commands.dropped } } := { h with dropped := saturate_le h.dropped }
  exact dropped.stand (occur_queuesStand _ _)

theorem placeReply (f : Frame) (hroom : s.commands.used < 4) : QueuesFit (s.placeReply f) := by
  have hreplies : (s.commands.replies ++ [f]).length + s.commands.reserved ≤ 4 := by
    have : s.commands.replies.length + s.commands.reserved < 4 := hroom
    rw [List.length_append, List.length_singleton]
    omega
  exact { h with replies := hreplies }

theorem endHoldWith (cause : HoldEnd) : QueuesFit (s.endHoldWith cause) := by
  have ended : QueuesFit s.endHold := { h with exclusive := fun _ => rfl }
  exact ended.stand (record_queuesStand _ _).settled

theorem holdOn (limit : Nat) : QueuesFit (s.holdOn limit).state := by
  unfold State.holdOn
  split
  · exact h
  next hsweep =>
    split
    · exact { h with exclusive := fun hs => absurd hs hsweep }
    · have begun : QueuesFit (s.beginHold (clamp 10 600 limit)) :=
        { h with exclusive := fun hs => absurd hs hsweep }
      exact begun.stand (settleLamps_queuesStand _)

theorem holdOff : QueuesFit s.holdOff.state := by
  unfold State.holdOff
  split
  · exact h.endHoldWith .command
  · exact h

theorem takeHold (b : List Byte) : QueuesFit (takeHold b s).state := by
  unfold Machine.takeHold
  split
  · exact h.holdOff
  · exact h.holdOn _
  · exact h

theorem takeHoldExpiry : QueuesFit s.takeHoldExpiry := by
  unfold State.takeHoldExpiry
  split
  · exact (h.stand (advanceTo_queuesStand s _)).endHoldWith .expiry
  · exact h

/-- A sweep begins with no sweep before it, so its slot is the only one reserved (R105, R173). -/
theorem beginSweep (tag : Byte) (bank : Nat) (hroom : s.commands.used < 4)
    (hsweep : s.lamps.sweep.isSome = false) (hhold : s.lamps.holdEnds = none) :
    QueuesFit (s.beginSweep tag bank) := by
  have hnone : s.commands.reserved = 0 := by rw [h.reserved, hsweep]; rfl
  have hreplies : s.commands.replies.length + (s.commands.reserved + 1) ≤ 4 := hroom
  have hreserved : s.commands.reserved + 1 = 1 := by rw [hnone]
  exact { h with replies := hreplies, reserved := hreserved, exclusive := fun _ => hhold }

theorem takeProve (tag : Byte) (b : List Byte) (hroom : s.commands.used < 4) :
    QueuesFit (takeProve tag b s).state := by
  unfold Machine.takeProve
  dsimp only
  repeat' split
  · exact h
  · exact h
  next hbusy =>
    have hidle : s.lamps.sweep.isSome = false ∧ s.lamps.holdEnds = none := by simpa using hbusy
    exact (h.beginSweep tag _ hroom hidle.1 hidle.2).stand (settleLamps_queuesStand _)

/-- The completion reply takes the slot that the sweep reserved (R109, R173). -/
theorem completeSweep (w : Sweep) (hsweep : s.lamps.sweep.isSome) : QueuesFit (s.completeSweep w) := by
  have hone : s.commands.reserved = 1 := by rw [h.reserved, hsweep]; rfl
  have completed (reply : Frame) : QueuesFit { s.withSweep none with commands := { s.commands with
      replies := s.commands.replies ++ [reply], reserved := s.commands.reserved - 1 } } := by
    have hreplies : (s.commands.replies ++ [reply]).length + (s.commands.reserved - 1) ≤ 4 := by
      have := h.replies
      rw [List.length_append, List.length_singleton]
      omega
    have hreserved : s.commands.reserved - 1 = 0 := by rw [hone]
    exact { h with
      replies := hreplies, reserved := hreserved, exclusive := fun hs => absurd hs Bool.false_ne_true }
  unfold State.completeSweep
  dsimp only
  split
  · exact completed _
  · exact (completed _).stand (occur_queuesStand _ _)

theorem endDwell (w : Sweep) (currents : BitVec 256) (hsweep : s.lamps.sweep.isSome) :
    QueuesFit (s.endDwell w currents) := by
  have hstand := judgeStep_queuesStand s w (bankSamples w.bank currents)
  have hjudged := h.stand hstand
  have hgoes := hstand.sweep.trans hsweep
  unfold State.endDwell
  dsimp only
  split
  · exact hjudged.stand
      (QueuesStand.settled ⟨rfl, rfl, hgoes.symm, rfl, id, id⟩)
  · exact (hjudged.completeSweep _ hgoes).stand (settleLamps_queuesStand _)

theorem takeDwellEnd (currents : BitVec 256) : QueuesFit (s.takeDwellEnd currents) := by
  unfold State.takeDwellEnd
  split
  next w hw =>
    split
    · exact (h.stand (advanceTo_queuesStand s _)).endDwell w currents
        (Option.isSome_iff_exists.2 ⟨w, hw⟩)
    · exact h
  next => exact h

/-! ### SET STATION, RESTART and reset -/

theorem takeSetStation (b : List Byte) (hassigned : s.port.station.isSome) :
    QueuesFit (takeSetStation b s).state := by
  unfold Machine.takeSetStation
  dsimp only
  split
  next hn =>
    have hstraps : ¬ (s.port.straps = 0 ∨ s.port.straps = 63) := fun hp => by
      rw [h.passOnly.2 hp] at hassigned
      exact Bool.false_ne_true hassigned
    refine { h with
      passOnly := ⟨fun hs => absurd hs (Option.some_ne_none _), fun hp => absurd hp hstraps⟩
      station := fun n hs => ?_ }
    obtain rfl : byteOf (field8 b 0) = n := Option.some.inj hs
    rw [byteOf_toNat]
    omega
  next => exact h

theorem restartAll : QueuesFit s.restartAll := by
  rw [restartAll_eq]
  exact { h with
    replies := Nat.zero_le 4, reserved := rfl, exclusive := fun hs => absurd hs Bool.false_ne_true
    localWait := Nat.zero_le 8, frameErrors := Nat.zero_le _, badRun := Nat.zero_le 8
    returned := Nat.zero_le 255, foreign := Nat.zero_le 255, forwardDrops := Nat.zero_le _
    dropped := Nat.zero_le 255, unmapped := Nat.zero_le _
    events := Nat.le_of_ble_eq_true rfl, lost := Nat.zero_le 255 }

end QueuesFit

theorem stationOfStraps_eq_none (straps : BitVec 6) :
    stationOfStraps straps = none ↔ straps = 0 ∨ straps = 63 := by
  unfold stationOfStraps
  split
  next h => exact ⟨fun _ => h, fun _ => rfl⟩
  next h => exact ⟨fun hs => absurd hs (Option.some_ne_none _), fun hp => absurd hp h⟩

theorem stationOfStraps_range {straps : BitVec 6} {n : Byte} (h : stationOfStraps straps = some n) :
    1 ≤ n.toNat ∧ n.toNat ≤ 62 := by
  have hne := mt (stationOfStraps_eq_none straps).2 (by rw [h]; exact Option.some_ne_none n)
  rw [stationOfStraps, if_neg hne] at h
  obtain rfl := Option.some.inj h
  rw [BitVec.zeroExtend, BitVec.toNat_setWidth]
  bv_omega

theorem queuesFit_hardwareReset (s : State) (source : ResetSource) (straps : BitVec 6) :
    QueuesFit (s.hardwareReset source straps) where
  replies := Nat.zero_le 4
  reserved := rfl
  exclusive _ := rfl
  fifo := Nat.zero_le 4
  localWait := Nat.zero_le 8
  frameErrors := Nat.zero_le _
  badRun := Nat.zero_le 8
  returned := Nat.zero_le 255
  foreign := Nat.zero_le 255
  forwardDrops := Nat.zero_le _
  dropped := Nat.zero_le 255
  unmapped := Nat.zero_le _
  events := Nat.zero_le 48
  lost := Nat.zero_le 255
  passOnly := stationOfStraps_eq_none straps
  station _ := stationOfStraps_range

theorem forward_station (s : State) (f : Frame) : (s.forward f).port.station = s.port.station := by
  unfold State.forward
  repeat' split
  all_goals rfl

/-! ### Commands that leave the queues standing -/

theorem takeSetTiming_queuesStand (b : List Byte) (s : State) :
    QueuesStand s (takeSetTiming b s).state := by
  unfold takeSetTiming
  split
  · exact .of_eq rfl rfl rfl rfl rfl rfl
  · exact .refl s

theorem takeSetCadence_queuesStand (b : List Byte) (s : State) :
    QueuesStand s (takeSetCadence b s).state := by
  unfold takeSetCadence
  split
  · exact .of_eq rfl rfl rfl rfl rfl rfl
  · exact .refl s

theorem takePointLoad_queuesStand (b : List Byte) (s : State) :
    QueuesStand s (takePointLoad b s).state := by
  unfold takePointLoad
  repeat' split
  · exact .refl s
  · exact .refl s
  · exact loadEntry_queuesStand s _

theorem takePointDrop_queuesStand (b : List Byte) (s : State) :
    QueuesStand s (takePointDrop b s).state := by
  unfold takePointDrop
  split
  · exact .refl s
  · exact dropEntry_queuesStand s _

theorem takePointRead_queuesStand (b : List Byte) (s : State) :
    QueuesStand s (takePointRead b s).state := by
  unfold takePointRead
  split <;> exact .refl s

theorem takeGroupSet_queuesStand (b : List Byte) (s : State) :
    QueuesStand s (takeGroupSet b s).state := by
  unfold takeGroupSet
  dsimp only
  repeat' split
  · exact .of_eq rfl rfl rfl rfl rfl rfl
  · exact .refl s
  · exact .refl s

theorem takeOutstationRead_queuesStand (b : List Byte) (s : State) :
    QueuesStand s (takeOutstationRead b s).state := by
  unfold takeOutstationRead
  split <;> exact .refl s

theorem takeAckPoint_queuesStand (b : List Byte) (s : State) :
    QueuesStand s (takeAckPoint b s).state := by
  unfold takeAckPoint
  repeat' split
  all_goals first | exact .refl s | exact (acknowledge_queuesStand s _).settled

theorem takeAckGroup_queuesStand (b : List Byte) (s : State) :
    QueuesStand s (takeAckGroup b s).state := by
  unfold takeAckGroup
  dsimp only
  split
  · exact acknowledgeAll_queuesStand s _
  · exact .refl s

theorem silenceHorn_queuesStand (s : State) : QueuesStand s s.silenceHorn :=
  .of_eq rfl rfl rfl rfl rfl rfl

theorem takeHornSet_queuesStand (b : List Byte) (s : State) :
    QueuesStand s (takeHornSet b s).state := by
  unfold takeHornSet
  split
  · exact .of_eq rfl rfl rfl rfl rfl rfl
  · exact .refl s

theorem takeLampOverride_queuesStand (b : List Byte) (s : State) :
    QueuesStand s (takeLampOverride b s).state := by
  unfold takeLampOverride
  dsimp only
  repeat' split
  · exact .refl s
  · exact .refl s
  · exact .refl s
  · exact .of_eq rfl rfl rfl rfl rfl rfl

theorem takeLampRead_queuesStand (b : List Byte) (s : State) :
    QueuesStand s (takeLampRead b s).state := by
  unfold takeLampRead
  split <;> exact .refl s

theorem takeClearLampFaults_queuesStand (b : List Byte) (s : State) :
    QueuesStand s (takeClearLampFaults b s).state := by
  unfold takeClearLampFaults
  dsimp only
  split
  · exact mapChannels_queuesStand s _
  · exact .refl s

theorem takeLineSet_queuesStand (b : List Byte) (s : State) :
    QueuesStand s (takeLineSet b s).state := by
  unfold takeLineSet
  split
  · simpa only [Answer.ok] using setLine_queuesStand s _ _ _
  · exact .refl s

/-! ### Commands (R172 to R176) -/

theorem restartAll_used (s : State) : s.restartAll.commands.used = 0 := by
  rw [restartAll_eq]
  rfl

theorem takeSetStation_commands (b : List Byte) (s : State) :
    (takeSetStation b s).state.commands = s.commands := by
  unfold takeSetStation
  dsimp only
  split <;> rfl

theorem takeHold_commands (b : List Byte) (s : State) : (takeHold b s).state.commands = s.commands := by
  unfold takeHold State.holdOff State.holdOn
  repeat' split
  all_goals rfl

/-- PROVE is answered at once only where it is refused (R105). -/
theorem takeProve_refused {tag : Byte} {b : List Byte} {s : State}
    (h : (takeProve tag b s).reply.isSome) : (takeProve tag b s).state = s := by
  unfold takeProve at h ⊢
  dsimp only at h ⊢
  repeat' split
  · rfl
  · rfl
  next hbank hbusy =>
    rw [if_neg hbank, if_neg hbusy] at h
    exact absurd h Bool.false_ne_true

/-- A command leaves the queues within their ranges, and a reply slot for the reply it is answered with. -/
structure AnswerFits (s : State) (a : Answer) : Prop where
  fits : QueuesFit a.state
  slot : a.reply.isSome → a.state.commands.used ≤ s.commands.used

namespace QueuesFit

variable {s : State} (h : QueuesFit s)
include h

theorem answer_of_stand {a : Answer} (hs : QueuesStand s a.state) : AnswerFits s a :=
  ⟨h.stand hs, fun _ => by rw [hs.commands]⟩

/-- A command past its length check leaves the queues within their ranges. Only PROVE, which is not
broadcast-allowed, takes a slot that it must find free (R105, R173, R176). -/
theorem command {code : Byte} {rule : CommandRule} (hc : commandRule code = some rule) (tag : Byte)
    (params : List Byte) (hassigned : s.port.station.isSome)
    (hroom : s.commands.used < 4 ∨ rule.broadcast = true) : AnswerFits s (rule.run tag params s) := by
  have stands {a : Answer} (hs : QueuesStand s a.state) : AnswerFits s a := h.answer_of_stand hs
  unfold commandRule at hc
  split at hc <;> cases hc
  · exact stands (.refl s)
  · exact ⟨h.takeSetStation params hassigned, fun _ => by rw [takeSetStation_commands]⟩
  · exact ⟨h.restartAll, fun _ => (restartAll_used s).trans_le (Nat.zero_le _)⟩
  · exact stands (takeSetTiming_queuesStand params s)
  · exact stands (resync_queuesStand s)
  · exact stands (takeSetCadence_queuesStand params s)
  · exact stands (takePointLoad_queuesStand params s)
  · exact stands (takePointDrop_queuesStand params s)
  · exact stands (takePointRead_queuesStand params s)
  · exact stands (clearTable_queuesStand s)
  · exact stands (.refl s)
  · exact stands (takeGroupSet_queuesStand params s)
  · exact stands (takeOutstationRead_queuesStand params s)
  · exact stands (setStaleLimit_queuesStand s _)
  · exact stands (takeAckPoint_queuesStand params s)
  · exact stands (takeAckGroup_queuesStand params s)
  · exact stands (acknowledgeAll_queuesStand s _)
  · exact stands (silenceHorn_queuesStand s)
  · exact stands (takeHornSet_queuesStand params s)
  · exact stands (takeLampOverride_queuesStand params s)
  · exact stands (takeLampRead_queuesStand params s)
  · exact ⟨h.takeHold params, fun _ => by rw [takeHold_commands]⟩
  · exact ⟨h.takeProve tag params (hroom.resolve_right Bool.false_ne_true),
      fun hr => by rw [takeProve_refused hr]⟩
  · exact stands (takeClearLampFaults_queuesStand params s)
  · exact stands (takeLineSet_queuesStand params s)
  · exact stands (.of_eq rfl rfl rfl rfl rfl rfl)
  · exact stands (.refl s)
  · exact stands (clearConditions_queuesStand s _)
  · exact stands (raiseConditions_queuesStand s _)
  · exact stands ⟨rfl, rfl, rfl, rfl, id, id⟩

/-! ### Frames and bytes -/

theorem takeAddressed (station tag code : Byte) (params : List Byte) (hassigned : s.port.station.isSome) :
    QueuesFit (s.takeAddressed station tag code params) := by
  unfold State.takeAddressed
  split
  next hroom =>
    have hfree := (CommandUnit.hasRoom_iff _).1 hroom
    have hfits : AnswerFits s (s.execute tag code params) := by
      unfold State.execute
      repeat' split
      · exact h.answer_of_stand (.refl s)
      next hc _ => exact h.command hc tag params hassigned (.inl hfree)
      · exact h.answer_of_stand (.refl s)
    unfold Answer.settle
    split
    next hreply => exact hfits.fits.placeReply _ ((hfits.slot (by rw [hreply]; rfl)).trans_lt hfree)
    next => exact hfits.fits
  next => exact h.dropCommand

theorem takeBroadcast (tag code : Byte) (params : List Byte) (hassigned : s.port.station.isSome) :
    QueuesFit (s.takeBroadcast tag code params) := by
  unfold State.takeBroadcast
  repeat' split
  · exact h
  next hc hallowed => exact (h.command hc tag params hassigned (.inr hallowed.1)).fits
  · exact h

theorem arrive (f : Frame) : QueuesFit (s.arrive f) := by
  have hf := h.received.forward f
  unfold State.arrive
  split
  next station hs =>
    have hassigned : s.received.port.station.isSome := Option.isSome_iff_exists.2 ⟨station, hs⟩
    have hforwarded : (s.received.forward f).port.station.isSome := by
      rwa [forward_station]
    unfold State.forwardingDecision State.takeAddressedBody State.takeBroadcastBody
    repeat' split
    · exact h.received.countReturned
    · exact hf.stand (takeTelemetry_queuesStand _ f)
    · exact h.received.countForeign.forward f
    · exact h.received.takeAddressed _ _ _ _ hassigned
    · exact h.received
    · exact hf.takeBroadcast _ _ _ hforwarded
    all_goals exact hf
  next => exact hf

theorem receiveByte (b : Byte) : QueuesFit (s.receiveByte b) := by
  unfold State.receiveByte State.judgeFrame
  dsimp only
  repeat' split
  all_goals first
    | exact h | exact h.withReceiver _ | exact h.frameError | exact h.arrive _

/-! ### Own events and the step -/

theorem ownEvent (e : OwnEvent) (currents : BitVec 256) : QueuesFit (e.take currents s) := by
  have hg := h.granted
  cases e with
  | grant => exact hg
  | started => exact hg.stand (takeStarted_queuesStand _)
  | gap => exact hg.takeTruncated
  | sent => exact hg.takeTransmissionEnd
  | lateBound => exact hg.stand (takeLateBound_queuesStand _)
  | dwell => exact hg.takeDwellEnd currents
  | hold => exact hg.takeHoldExpiry
  | phase c => exact hg.stand (takePhaseEnd_queuesStand _ _ _)
  | debounce i => exact hg.stand (takeDebounce_queuesStand _ i)
  | sense => exact hg.stand (takeSenseTimer_queuesStand _ _)

theorem drawCurrents : QueuesFit s.drawCurrents := { h with }

theorem withPending (queue : List Instr) : QueuesFit (s.withPending queue) := { h with }

theorem takeCharacter (c : Character) : QueuesFit (s.takeCharacter c) := by
  have ended := passUntil_keeps QueuesFit (s.clock + Config.characterTime)
    (fun t e (ht : QueuesFit t) _ => ht.drawCurrents.ownEvent e _)
    (fun t us ht => ht.stand (advanceTo_queuesStand t us)) Config.eventsPerCharacter _ h.startBit.granted
  exact ended.granted.receiveByte _

theorem exec {i : Instr} {t : State} (hstep : Machine.exec i s = .next t) : QueuesFit t := by
  cases hf : frameOf i with
  | some f =>
    rw [exec_frameOf hf] at hstep
    cases hstep
    exact h.granted.arrive f
  | none =>
    have own (e : OwnEvent) (currents : BitVec 256)
        (hrow : Machine.exec (e.row currents) s = .next t) : QueuesFit t := by
      rw [exec_row] at hrow
      cases hrow
      exact h.ownEvent e currents
    cases i with
    | hardwareReset source straps =>
      simp only [Machine.exec, execHardwareReset] at hstep
      split at hstep <;> cases hstep
      · exact queuesFit_hardwareReset s source straps
      · exact h.granted
    | badLength => cases hstep; exact h.granted.frameError
    | badCrc => cases hstep; exact h.granted.frameError
    | pinChange line level => cases hstep; exact h.granted.stand (modifyLine_queuesStand _ _ _)
    | byteReceived character => cases hstep; exact h.granted.takeCharacter character
    | startedRecordQueued => exact own .started 0 hstep
    | truncated => exact own .gap 0 hstep
    | lateBoundExpiry => exact own .lateBound 0 hstep
    | holdExpiry => exact own .hold 0 hstep
    | dwellEnd currents => exact own .dwell currents hstep
    | senseTimerExpiry currents => exact own .sense currents hstep
    | phaseEnd generator currents => exact own (.phase generator) currents hstep
    | debounceExpiry line => exact own (.debounce line) 0 hstep
    | grant => exact own .grant 0 hstep
    | transmissionEnd => exact own .sent 0 hstep
    | _ => cases hf

theorem step {t : State} (hstep : Machine.step s = .next t) : QueuesFit t := by
  unfold Machine.step idleStep at hstep
  repeat' split at hstep
  · exact (h.withPending _).exec hstep
  · exact h.drawCurrents.exec hstep
  · cases hstep
    exact h.stand (advanceTo_queuesStand s _)

end QueuesFit

/-- Settles O56: each operation keeps the queues and counts within their ranges, so every step does. -/
theorem everyStepKeepsTheQueuesWithinTheirRanges : Obligations.EveryStepKeepsTheQueuesWithinTheirRanges :=
  fun _ _ hfit hstep => hfit.step hstep

end Sys2Proof.Machine
end

section
/-! The decoding of a valid item by the class of its point (R30 to R42), and the evaluation of an entry by its
class (R43). -/

namespace Sys2Proof.Machine

/-! ### Evaluation by class (R43) -/

theorem evaluate_binary {e : PointEntry} {inverted normal one : Bool} (hc : e.cls = .binary inverted normal)
    (hd : e.decoded = some (.state one)) :
    e.evaluate = if one = normal then none else some .abnormal := by
  rw [PointEntry.evaluate, hc]
  simp only [hd]
  cases one <;> cases normal <;> rfl

/-- The cause of a DOUBLE position (R43). -/
def Position.cause (limit travel : Nat) (da : Bool) : Position → Option Cause
  | .disagree => if da then some .disagree else none
  | .travel => if limit ≠ 0 ∧ travel = limit then some .travelStuck else none
  | .opened => none
  | .closed => none

theorem evaluate_double {e : PointEntry} {limit : Nat} {da : Bool} {p : Position}
    (hc : e.cls = .double limit da) (hd : e.decoded = some (.position p)) :
    e.evaluate = p.cause limit e.travel da := by
  rw [PointEntry.evaluate, hc]
  simp only [hd]
  cases p <;> rfl

theorem evaluate_analogue {e : PointEntry} {mode : ColumnMode} {q : AnalogueParams}
    (hc : e.cls = .analogue mode q) :
    e.evaluate = if e.sensorFault = true then some .sensorFault else e.band.cause := by
  rw [PointEntry.evaluate, hc]

/-- Only an ANALOGUE entry can have the quality SENSOR_FAULT (R47). -/
theorem quality_ne_sensorFault {e : PointEntry} (h : e.isAnalogue = false) (s : State) :
    s.quality e ≠ .sensorFault := by
  unfold State.quality
  rw [h, Bool.false_and, if_neg Bool.false_ne_true]
  repeat' split
  all_goals exact Quality.noConfusion

/-! ### Storing by class (R30 to R34, R37) -/

theorem store_binary {e : PointEntry} {inverted normal : Bool} (hc : e.cls = .binary inverted normal)
    (raw : Nat) : e.store raw = { e with
      raw := some raw, itemInvalid := false, decoded := some (.state (decide (raw ≠ 0))) } := by
  have hone : (raw != 0) = decide (raw ≠ 0) := by rw [Bool.eq_iff_iff]; simp
  simp only [PointEntry.store, hc, hone]

theorem store_double {e : PointEntry} {limit : Nat} {da : Bool} (hc : e.cls = .double limit da) (raw : Nat) :
    e.store raw = { e with
      raw := some raw, itemInvalid := false, decoded := some (.position (positionOf raw))
      travel := if positionOf raw = .travel ∧ e.decoded = some (.position .travel) then e.travel
        else 0 } := by
  simp only [PointEntry.store, hc, travelAfter, and_comm]

theorem store_analogue_fault {e : PointEntry} {mode : ColumnMode} {q : AnalogueParams}
    (hc : e.cls = .analogue mode q) {raw : Nat} (hf : q.passesFault raw = false) :
    e.store raw = { e with raw := some raw, itemInvalid := false, sensorFault := true } := by
  simp only [PointEntry.store, hc, hf, Bool.false_eq_true, if_false]

theorem store_analogue {e : PointEntry} {mode : ColumnMode} {q : AnalogueParams}
    (hc : e.cls = .analogue mode q) {raw : Nat} (hf : q.passesFault raw = true) :
    e.store raw = { e with
      raw := some raw, itemInvalid := false, sensorFault := false
      decoded := some (.level (q.fill raw) (litCount (q.fill raw) e.span))
      band := q.band e.band (q.fill raw) } := by
  simp only [PointEntry.store, hc, hf, if_true]

theorem store_raw (e : PointEntry) (raw : Nat) :
    (e.store raw).raw = some raw ∧ (e.store raw).itemInvalid = false := by
  unfold PointEntry.store
  dsimp only
  repeat' split
  all_goals exact ⟨rfl, rfl⟩

theorem passesFault_iff (q : AnalogueParams) (raw : Nat) : q.passesFault raw = true ↔
    q.rawLo - q.underMargin ≤ raw ∧ raw ≤ q.rawHi + q.overMargin := by
  simp [AnalogueParams.passesFault]

/-- The position by the two lowest bits (R33). -/
theorem positionOf_iff (raw : Nat) :
    (positionOf raw = .travel ↔ raw % 4 = 0) ∧ (positionOf raw = .closed ↔ raw % 4 = 1) ∧
    (positionOf raw = .opened ↔ raw % 4 = 2) ∧ (positionOf raw = .disagree ↔ raw % 4 = 3) := by
  have hlt : raw % 4 < 4 := Nat.mod_lt _ (by decide)
  unfold positionOf
  generalize raw % 4 = m at hlt ⊢
  interval_cases m <;> decide

/-! ### Fill and lit count (R38, R39) -/

theorem fill_le {q : AnalogueParams} (h : q.rawLo < q.rawHi) (raw : Nat) : q.fill raw ≤ 1000 := by
  have hclamp : clamp q.rawLo q.rawHi raw - q.rawLo ≤ q.rawHi - q.rawLo := by
    unfold clamp
    omega
  exact Nat.div_le_of_le_mul (Nat.mul_le_mul_right 1000 hclamp)

theorem litCount_le {f : Nat} (h : f ≤ 1000) (span : Nat) : litCount f span ≤ span := by
  have hmul : f * span ≤ 1000 * span := Nat.mul_le_mul_right span h
  unfold litCount
  omega

/-! ### The band with hysteresis (R40 to R42) -/

theorem atOrAbove_iff (f : Nat) (t : Option Nat) (margin : Nat) :
    atOrAbove f t margin = true ↔ AtLeast t margin f := by
  cases t <;> simp [atOrAbove, AtLeast]

theorem atOrBelow_iff (f : Nat) (t : Option Nat) (margin : Nat) :
    atOrBelow f t margin = true ↔ AtMost t margin f := by
  cases t <;> simp [atOrBelow, AtMost]

theorem sideLevel_outer (outer inner : Bool) : 2 ≤ sideLevel outer inner ↔ outer = true := by
  cases outer <;> cases inner <;> decide

theorem sideLevel_inner (outer inner : Bool) :
    1 ≤ sideLevel outer inner ↔ outer = true ∨ inner = true := by
  cases outer <;> cases inner <;> decide

/-- The high level is 2 by the outer threshold, at entry or held from HIGH_HIGH (R40). -/
theorem highLevel_outer (q : AnalogueParams) (before : Band) (f : Nat) : 2 ≤ q.highLevel before f ↔
    AtLeast q.hh 0 f ∨ (before = .highHigh ∧ AtLeast q.hh q.deadband f) := by
  cases before <;>
    simp [AnalogueParams.highLevel, sideLevel_outer, atOrAbove_iff]

/-- The high level is at least 1 by either threshold, at entry or held from HIGH or HIGH_HIGH (R40). -/
theorem highLevel_inner (q : AnalogueParams) (before : Band) (f : Nat) : 1 ≤ q.highLevel before f ↔
    2 ≤ q.highLevel before f ∨ AtLeast q.h 0 f ∨
      ((before = .high ∨ before = .highHigh) ∧ AtLeast q.h q.deadband f) := by
  rw [highLevel_outer]
  cases before <;>
    simp [AnalogueParams.highLevel, sideLevel_inner, atOrAbove_iff] <;> tauto

theorem lowLevel_outer (q : AnalogueParams) (before : Band) (f : Nat) : 2 ≤ q.lowLevel before f ↔
    AtMost q.ll 0 f ∨ (before = .lowLow ∧ AtMost q.ll q.deadband f) := by
  cases before <;>
    simp [AnalogueParams.lowLevel, sideLevel_outer, atOrBelow_iff]

theorem lowLevel_inner (q : AnalogueParams) (before : Band) (f : Nat) : 1 ≤ q.lowLevel before f ↔
    2 ≤ q.lowLevel before f ∨ AtMost q.l 0 f ∨
      ((before = .low ∨ before = .lowLow) ∧ AtMost q.l q.deadband f) := by
  rw [lowLevel_outer]
  cases before <;>
    simp [AnalogueParams.lowLevel, sideLevel_inner, atOrBelow_iff] <;> tauto

/-- The band by the two levels: the high side goes before the low one (R42). -/
theorem bandOf_iff (high low : Nat) :
    (bandOf high low = .highHigh ↔ 2 ≤ high) ∧ (bandOf high low = .high ↔ 1 ≤ high ∧ ¬ 2 ≤ high) ∧
    (bandOf high low = .lowLow ↔ ¬ 1 ≤ high ∧ 2 ≤ low) ∧
    (bandOf high low = .low ↔ ¬ 1 ≤ high ∧ 1 ≤ low ∧ ¬ 2 ≤ low) ∧
    (bandOf high low = .normal ↔ ¬ 1 ≤ high ∧ ¬ 1 ≤ low) := by
  match high, low with
  | 0, 0 => decide
  | 0, 1 => decide
  | 0, n + 2 => simp [bandOf]
  | 1, n => simp [bandOf]
  | n + 2, m => simp [bandOf]

/-- The new band of an ANALOGUE value, in the words of R40 to R42. -/
theorem band_iff (q : AnalogueParams) (before : Band) (f : Nat) {high1 high2 low1 low2 : Prop}
    (hhigh2 : high2 ↔ AtLeast q.hh 0 f ∨ (before = .highHigh ∧ AtLeast q.hh q.deadband f))
    (hhigh1 : high1 ↔ high2 ∨ AtLeast q.h 0 f ∨
      ((before = .high ∨ before = .highHigh) ∧ AtLeast q.h q.deadband f))
    (hlow2 : low2 ↔ AtMost q.ll 0 f ∨ (before = .lowLow ∧ AtMost q.ll q.deadband f))
    (hlow1 : low1 ↔ low2 ∨ AtMost q.l 0 f ∨
      ((before = .low ∨ before = .lowLow) ∧ AtMost q.l q.deadband f)) :
    (q.band before f = .highHigh ↔ high2) ∧ (q.band before f = .high ↔ high1 ∧ ¬ high2) ∧
    (q.band before f = .lowLow ↔ ¬ high1 ∧ low2) ∧
    (q.band before f = .low ↔ ¬ high1 ∧ low1 ∧ ¬ low2) ∧
    (q.band before f = .normal ↔ ¬ high1 ∧ ¬ low1) := by
  have h2 : high2 ↔ 2 ≤ q.highLevel before f := hhigh2.trans (highLevel_outer ..).symm
  have h1 : high1 ↔ 1 ≤ q.highLevel before f := by rw [hhigh1, h2, ← highLevel_inner]
  have l2 : low2 ↔ 2 ≤ q.lowLevel before f := hlow2.trans (lowLevel_outer ..).symm
  have l1 : low1 ↔ 1 ≤ q.lowLevel before f := by rw [hlow1, l2, ← lowLevel_inner]
  rw [h1, h2, l1, l2]
  exact bandOf_iff _ _

/-! ### The statement -/

/-- Settles O53: each class by the equation of its store, the band by its two levels. -/
theorem itemsDecodeByTheirClass : Obligations.ItemsDecodeByTheirClass := by
  rintro e _ raw rfl
  refine ⟨fun _ _ _ => evaluate_binary,
    fun _ _ p hc hd => (evaluate_double hc hd).trans (by cases p <;> rfl),
    fun _ _ hc => (evaluate_analogue hc).trans (by cases e.band <;> rfl),
    (store_raw e raw).1, (store_raw e raw).2, fun inverted normal hc => ?binary, fun limit da hc => ?double,
    fun mode q hc hq => ⟨fun hout => ?fault, fun hin => ?analogue⟩⟩
  case binary =>
    have hcls : (e.store raw).cls = .binary inverted normal := by rw [store_binary hc]; exact hc
    have hdecoded : (e.store raw).decoded = some (.state (decide (raw ≠ 0))) := by rw [store_binary hc]
    refine ⟨store_binary hc raw, ?_, quality_ne_sensorFault (by rw [PointEntry.isAnalogue, hcls])⟩
    rw [evaluate_binary hcls hdecoded]
    split
    next heq => exact ⟨fun h => absurd h (Option.some_ne_none _).symm, fun hne => absurd heq hne⟩
    next hne => exact ⟨fun _ => hne, fun _ => rfl⟩
  case double =>
    obtain ⟨htravel, hclosed, hopened, hdisagree⟩ := positionOf_iff raw
    refine ⟨positionOf raw, store_double hc raw, htravel, hclosed, hopened, hdisagree, ?_⟩
    exact quality_ne_sensorFault (by rw [store_double hc, PointEntry.isAnalogue]; simp only [hc])
  case fault =>
    refine store_analogue_fault hc (Bool.eq_false_iff.2 fun hp => ?_)
    rw [passesFault_iff] at hp
    omega
  case analogue =>
    have hstore := store_analogue hc ((passesFault_iff q raw).2 hin)
    have hfill := fill_le hq raw
    have hband : (e.store raw).band = q.band e.band (q.fill raw) := by rw [hstore]
    refine ⟨clamp q.rawLo q.rawHi raw, q.fill raw, litCount (q.fill raw) e.span, hband ▸ hstore,
      fun _ => ?_, fun _ => ?_, fun _ => ?_, rfl, hfill, rfl, litCount_le hfill _, ?_⟩
    · unfold clamp; omega
    · unfold clamp; omega
    · unfold clamp; omega
    · rw [hband]
      exact fun _ _ _ _ => band_iff q e.band (q.fill raw)

end Sys2Proof.Machine
end

section
/-! POINTS frames (R24 to R31): the arrival of a telemetry frame, and what each item of a frame leaves. -/

namespace Sys2Proof.Machine

/-! ### The arrival of a telemetry frame (R162, R163) -/

/-- Forwarding moves the Loop Port and the reports alone. -/
theorem passedOn_frame (s : State) (f : Frame) : s.passedOn f =
    { s with port := (s.passedOn f).port, reports := (s.passedOn f).reports } := by
  unfold State.passedOn
  split <;> rfl

theorem passedOn_station (s : State) (f : Frame) : (s.passedOn f).port.station = s.port.station := by
  unfold State.passedOn
  split <;> rfl

@[simp] theorem passedOn_clock (s : State) (f : Frame) : (s.passedOn f).clock = s.clock := by
  rw [passedOn_frame]
@[simp] theorem passedOn_supervisor (s : State) (f : Frame) : (s.passedOn f).supervisor = s.supervisor := by
  rw [passedOn_frame]
@[simp] theorem passedOn_points (s : State) (f : Frame) : (s.passedOn f).points = s.points := by
  rw [passedOn_frame]
@[simp] theorem passedOn_outstations (s : State) (f : Frame) :
    (s.passedOn f).outstations = s.outstations := by
  rw [passedOn_frame]
@[simp] theorem passedOn_staleLimit (s : State) (f : Frame) : (s.passedOn f).staleLimit = s.staleLimit := by
  rw [passedOn_frame]

/-- Forwarding has no say in the lamps. -/
theorem LampsSettled.passedOn {s : State} (h : LampsSettled s) (f : Frame) : LampsSettled (s.passedOn f) := by
  have hn := passedOn_station s f
  rw [passedOn_frame]
  exact h.congr rfl hn rfl rfl rfl rfl rfl rfl rfl

/-- A telemetry row from the loop head is forwarded and then taken by its block (R162, row 2). -/
theorem exec_telemetry {i : Instr} {kind dest n : Byte} {body : List Byte}
    (hi : frameOf i = some ⟨kind, dest, 63, body⟩) (hk : isTelemetry kind = true) {s : State}
    (ha : AssignedAs s n) (hn : NoGrantDue s) : exec i s =
      .next ((s.passedOn ⟨kind, dest, 63, body⟩).takeTelemetry ⟨kind, dest, 63, body⟩) := by
  rw [exec_frameOf hi, granted_of_noGrantDue hn, arrive_telemetry ha kind dest body hk]

theorem exec_pointsFrame {s : State} {n : Byte} (ha : AssignedAs s n) (hn : NoGrantDue s) (dest : Byte)
    (body : List Byte) : exec (.pointsFrame dest 63 body) s =
      .next ((s.passedOn ⟨0x02, dest, 63, body⟩).takePoints body) :=
  exec_telemetry (i := .pointsFrame dest 63 body) rfl rfl ha hn

theorem exec_cycleMarker {s : State} {n : Byte} (ha : AssignedAs s n) (hn : NoGrantDue s) (dest : Byte)
    (body : List Byte) : exec (.cycleMarker dest 63 body) s =
      .next ((s.passedOn ⟨0x01, dest, 63, body⟩).takeCycle body) :=
  exec_telemetry (i := .cycleMarker dest 63 body) rfl rfl ha hn

/-- Lamps that show what R89 gives them are settled already. -/
theorem settleLamps_of_settled {s : State} (h : LampsSettled s) : s.settleLamps = s := by
  have hchannels : Table.mapIdx (fun c ch => ch.driveAs (s.drive c ch)) s.lamps.channels =
      s.lamps.channels := by
    refine Vector.ext fun c hc => ?_
    rw [Table.mapIdx_getElem, ← h c hc]
    rfl
  rw [State.settleLamps, State.mapChannels, hchannels]

/-! ### An entry of the table changed under its key -/

theorem store_key (e : PointEntry) (raw : Nat) : (e.store raw).key = e.key := by
  have h : (e.store raw).standing.key = e.standing.key := by rw [PointEntry.store_standing]
  exact h

theorem evaluated_key (now : Stamp) (e : PointEntry) : (e.evaluated now).key = e.key := by
  unfold PointEntry.evaluated
  split <;> rfl

theorem modifyPoint_modifyPoint (k : Key) {f g : PointEntry → PointEntry} (hf : ∀ e, (f e).key = e.key)
    (l : List PointEntry) : modifyPoint k g (modifyPoint k f l) = modifyPoint k (fun e => g (f e)) l := by
  simp only [modifyPoint, List.map_map]
  refine List.map_congr_left fun x _ => ?_
  by_cases hx : x.key = k <;> simp [hx, hf]

/-- With distinct keys, the entry changed under a key is the one held there. -/
theorem modifyPoint_held {s : State} (hd : KeysDistinct s.points) {k : Key} {e : PointEntry}
    (h : s.point k = some e) (f : PointEntry → PointEntry) :
    modifyPoint k f s.points = s.points.map fun x => if x.key = e.key then f e else x := by
  have hkey := point_key h
  refine List.map_congr_left fun x hx => ?_
  rw [hkey]
  split
  next hxk => rw [hd.eq hx (point_mem h) (hxk.trans hkey.symm)]
  next => rfl

theorem point_modifyPoint (s : State) (k : Key) {f : PointEntry → PointEntry}
    (hf : ∀ e, (f e).key = e.key) :
    State.point { s with points := modifyPoint k f s.points } k = (s.point k).map f := by
  have hsame : (fun x : PointEntry => decide ((if x.key = k then f x else x).key = k)) =
      fun x => decide (x.key = k) := by
    funext x
    by_cases hx : x.key = k <;> simp [hx, hf]
  change (modifyPoint k f s.points).find? _ = _
  rw [modifyPoint, List.find?_map]
  change Option.map _ (s.points.find? fun x => decide ((if x.key = k then f x else x).key = k)) = _
  rw [hsame]
  cases hp : s.point k with
  | none =>
    rw [show s.points.find? _ = none from hp]
    rfl
  | some e =>
    rw [show s.points.find? _ = some e from hp, Option.map_some, if_pos (point_key hp), Option.map_some]

theorem quality_withPoints (s : State) (l : List PointEntry) (e : PointEntry) :
    State.quality { s with points := l } e = s.quality e := quality_congr rfl rfl e

theorem KeysDistinct.of_keys {l l' : List PointEntry} (h : KeysDistinct l)
    (hk : l'.map (·.key) = l.map (·.key)) : KeysDistinct l' := by
  rw [keysDistinct_iff] at h ⊢
  rwa [hk]

theorem evaluatePoint_keys (s : State) (k : Key) :
    (s.evaluatePoint k).points.map (·.key) = s.points.map (·.key) := by
  have h := congrArg (List.map PointEntry.key) (evaluatePoint_tablesStand s k).points
  rw [List.map_map, List.map_map] at h
  exact h

theorem qualityReturn_keys (s before : State) (scope : PointEntry → Bool) :
    (s.qualityReturn before scope).points.map (·.key) = s.points.map (·.key) :=
  foldl_same (fun u : State => u.points.map (·.key)) _ evaluatePoint_keys _ s

/-- An entry changed under its key and then evaluated where it stands, as one step. -/
theorem modifyPoint_evaluatePoint {s : State} (hd : KeysDistinct s.points) {k : Key} {e : PointEntry}
    (h : s.point k = some e) {f : PointEntry → PointEntry} (hf : ∀ e, (f e).key = e.key) {t : State}
    (ht : t = State.evaluatePoint k { s with points := modifyPoint k f s.points }) :
    t.points = modifyPoint k (fun e => (f e).evaluated s.stamp) s.points ∧
    t.board = AlarmBoard.evaluated s.stamp s.board (f e) := by
  have hdistinct := hd.of_keys (modifyPoint_keys k f hf s.points)
  have hpoint : State.point { s with points := modifyPoint k f s.points } k = some (f e) := by
    rw [point_modifyPoint s k hf, h, Option.map_some]
  obtain ⟨hpoints, hboard⟩ := evaluatePoint_effect
    (s := { s with points := modifyPoint k f s.points }) hdistinct hpoint
  rw [ht]
  exact ⟨hpoints.trans (modifyPoint_modifyPoint k hf _), hboard⟩

/-! ### One item (R25 to R30) -/

theorem outstation_number {s : State} {n : Nat} {o : OutstationEntry} (h : s.outstation n = some o) :
    o.number = n := by
  simpa using List.find?_some h

/-- The entry of an outstation heard from, its other points evaluated where the stale flag was set (R26). -/
theorem refreshOutstation_frame (u : State) (o : OutstationEntry) (named : Key) :
    u.refreshOutstation o named = { u with
      points := (u.refreshOutstation o named).points, alarms := (u.refreshOutstation o named).alarms
      groups := (u.refreshOutstation o named).groups, reports := (u.refreshOutstation o named).reports
      outstations := modifyOutstation o.number OutstationEntry.refresh u.outstations } := by
  unfold State.refreshOutstation
  dsimp only
  split
  · exact qualityReturn_alarmSide _ _ _
  · rfl

theorem refreshOutstation_of_not_stale (u : State) {o : OutstationEntry} (h : o.stale = false)
    (named : Key) : u.refreshOutstation o named =
      { u with outstations := modifyOutstation o.number OutstationEntry.refresh u.outstations } := by
  rw [State.refreshOutstation, h]
  rfl

theorem refreshOutstation_of_stale {u : State} (hd : KeysDistinct u.points) {o : OutstationEntry}
    (h : o.stale = true) (named : Key) :
    Returned u { u with outstations := modifyOutstation o.number OutstationEntry.refresh u.outstations }
      (u.refreshOutstation o named) fun e => e.key.outstation == o.number && e.key != named := by
  rw [State.refreshOutstation, h]
  exact qualityReturn_returned _ hd

theorem refreshOutstation_keys (u : State) (o : OutstationEntry) (named : Key) :
    (u.refreshOutstation o named).points.map (·.key) = u.points.map (·.key) := by
  unfold State.refreshOutstation
  dsimp only
  split
  · exact qualityReturn_keys _ _ _
  · rfl

/-- A valid item stored, and the entry evaluated where its quality is trusted then (R30). -/
theorem takeValid_eq {m : State} {k : Key} {e : PointEntry} (h : m.point k = some e) (raw : Nat) :
    m.takeValid k raw =
      if (m.quality (e.store raw)).trusted
      then State.evaluatePoint k { m with points := modifyPoint k (·.store raw) m.points }
      else { m with points := modifyPoint k (·.store raw) m.points } := by
  have hpoint : State.point { m with points := modifyPoint k (·.store raw) m.points } k =
      some (e.store raw) := by
    rw [point_modifyPoint m k fun e => store_key e raw, h, Option.map_some]
  simp only [State.takeValid, hpoint, quality_withPoints]

theorem takeInvalid_keys (m : State) (k : Key) :
    (m.takeInvalid k).points.map (·.key) = m.points.map (·.key) :=
  modifyPoint_keys k (fun e => { e with itemInvalid := true }) (fun _ => rfl) m.points

theorem takeValid_keys (m : State) (k : Key) (raw : Nat) :
    (m.takeValid k raw).points.map (·.key) = m.points.map (·.key) := by
  have hstored := modifyPoint_keys k (·.store raw) (fun e => store_key e raw) m.points
  unfold State.takeValid
  dsimp only
  repeat' split
  · exact (evaluatePoint_keys _ _).trans hstored
  · exact hstored
  · exact hstored

theorem takeItem_keys (u : State) (i : Item) : (u.takeItem i).points.map (·.key) = u.points.map (·.key) := by
  unfold State.takeItem
  split
  · rfl
  split
  · rfl
  next o _ =>
    have hrefresh := refreshOutstation_keys u o ⟨i.outstation, i.index⟩
    dsimp only
    repeat' split
    · exact hrefresh
    · exact (takeInvalid_keys _ _).trans hrefresh
    · exact (takeValid_keys _ _ _).trans hrefresh

/-- An item that cannot be placed is counted UNMAPPED (R25, R28). -/
theorem takeItem_unmapped {u : State} {i : Item} (h : i.outstation = 0 ∨ u.outstation i.outstation = none) :
    u.takeItem i = u.countUnmapped := by
  unfold State.takeItem
  split
  · rfl
  next hne => rw [h.resolve_left hne]

/-- An item for a known outstation that holds no point under its key is counted UNMAPPED (R27, R28). -/
theorem takeItem_absent {u : State} {i : Item} {o : OutstationEntry} (hn : i.outstation ≠ 0)
    (ho : u.outstation i.outstation = some o)
    (h : (u.refreshOutstation o ⟨i.outstation, i.index⟩).point ⟨i.outstation, i.index⟩ = none) :
    u.takeItem i = (u.refreshOutstation o ⟨i.outstation, i.index⟩).countUnmapped := by
  simp only [State.takeItem, if_neg hn, ho, h]

/-- An item at a point of a known outstation: marked invalid, or taken as valid (R29, R30). -/
theorem takeItem_held {u : State} {i : Item} {o : OutstationEntry} (hn : i.outstation ≠ 0)
    (ho : u.outstation i.outstation = some o) {e : PointEntry}
    (h : (u.refreshOutstation o ⟨i.outstation, i.index⟩).point ⟨i.outstation, i.index⟩ = some e) :
    u.takeItem i = if i.invalid
      then (u.refreshOutstation o ⟨i.outstation, i.index⟩).takeInvalid ⟨i.outstation, i.index⟩
      else (u.refreshOutstation o ⟨i.outstation, i.index⟩).takeValid ⟨i.outstation, i.index⟩ i.value := by
  simp only [State.takeItem, if_neg hn, ho, h]

/-- An item with the INVALID flag, by the entry held (R29). -/
theorem takeInvalid_held {m : State} (hd : KeysDistinct m.points) {k : Key} {e : PointEntry}
    (h : m.point k = some e) : m.takeInvalid k = { m with points := m.points.map fun x =>
      if x.key = e.key then { e with itemInvalid := true } else x } := by
  rw [State.takeInvalid, modifyPoint_held hd h]

/-- A valid item at an entry whose quality withholds evaluation is stored alone (R30). -/
theorem takeValid_withheld {m : State} (hd : KeysDistinct m.points) {k : Key} {e : PointEntry}
    (h : m.point k = some e) {raw : Nat}
    (hq : m.quality (e.store raw) = .offline ∨ m.quality (e.store raw) = .stale) :
    m.takeValid k raw = { m with points := m.points.map fun x =>
      if x.key = e.key then e.store raw else x } := by
  have hwithheld : (m.quality (e.store raw)).trusted = false := by
    rcases hq with hq | hq <;> rw [hq] <;> rfl
  rw [takeValid_eq h, hwithheld, modifyPoint_held hd h]
  rfl

/-- A valid item at an entry whose quality is trusted is stored and the entry evaluated (R30). -/
theorem takeValid_trusted {m : State} (hd : KeysDistinct m.points) {k : Key} {e : PointEntry}
    (h : m.point k = some e) {raw : Nat}
    (hq : m.quality (e.store raw) = .good ∨ m.quality (e.store raw) = .sensorFault) {x : AlarmBoard}
    (hx : x = AlarmBoard.evaluated m.stamp m.board (e.store raw)) :
    m.takeValid k raw = { m with
      points := m.points.map fun x => if x.key = e.key then (e.store raw).evaluated m.stamp else x
      alarms := x.alarms, groups := x.groups, reports := x.reports } := by
  have htrusted : (m.quality (e.store raw)).trusted = true := by
    rcases hq with hq | hq <;> rw [hq] <;> rfl
  obtain ⟨hpoints, hboard⟩ := modifyPoint_evaluatePoint hd h (fun e => store_key e raw) rfl
  rw [takeValid_eq h, htrusted, if_pos rfl, hx, ← hboard]
  refine Eq.trans (evaluatePoint_alarmSide _ k) ?_
  rw [hpoints.trans (modifyPoint_held hd h _)]
  rfl

/-- What an item does, in the words of R25 to R30. -/
theorem takeItem_itemTaken {u : State} (hd : KeysDistinct u.points) (i : Item) :
    ItemTaken i.outstation i.index i.value i.invalid u (u.takeItem i) := by
  refine ⟨fun h => by rw [takeItem_unmapped h]; rfl, fun hn o ho => ?_⟩
  obtain ⟨n, index, raw, invalid⟩ := i
  obtain rfl : o.number = n := outstation_number ho
  have hm := hd.of_keys (refreshOutstation_keys u o ⟨o.number, index⟩)
  have hframe := refreshOutstation_frame u o ⟨o.number, index⟩
  have houtstations := congrArg State.outstations hframe
  refine ⟨u.refreshOutstation o ⟨o.number, index⟩, hframe,
    fun hs => by rw [refreshOutstation_of_not_stale u hs],
    fun hs => houtstations.symm ▸ refreshOutstation_of_stale hd hs _, fun hnone => ?absent,
    fun e he => ⟨fun hi => ?invalid, fun hi hq => ?withheld, fun hi hq => ?trusted⟩⟩
  case absent => exact takeItem_absent hn ho hnone
  case invalid =>
    obtain rfl : invalid = true := hi
    refine (takeItem_held hn ho he).trans ?_
    exact takeInvalid_held hm he
  case withheld =>
    obtain rfl : invalid = false := hi
    refine (takeItem_held hn ho he).trans ?_
    exact takeValid_withheld hm he hq
  case trusted =>
    obtain rfl : invalid = false := hi
    refine (takeItem_held hn ho he).trans ?_
    exact takeValid_trusted hm he hq rfl

/-! ### A frame (R24) -/

/-- The state after the first items of a body, the lamps not yet settled (R24). -/
def State.afterItems (s : State) (body : List Byte) (k : Nat) : State :=
  ((List.range k).map (itemAt body)).foldl (fun s i => s.takeItem i) s

theorem afterItems_succ (s : State) (body : List Byte) (k : Nat) :
    s.afterItems body (k + 1) = (s.afterItems body k).takeItem (itemAt body k) := by
  rw [State.afterItems, List.range_succ, List.map_append, List.foldl_append]
  rfl

theorem afterItems_keys (s : State) (body : List Byte) (k : Nat) :
    (s.afterItems body k).points.map (·.key) = s.points.map (·.key) :=
  foldl_same (fun u : State => u.points.map (·.key)) _ takeItem_keys _ s

/-- A body with a wrong count or length holds no item (R24). -/
theorem takePoints_malformed (s : State) {body : List Byte}
    (h : ¬ (1 ≤ field8 body 0 ∧ field8 body 0 ≤ 8 ∧ body.length = 1 + 6 * field8 body 0)) :
    s.takePoints body = s.settleLamps := by
  simp only [State.takePoints, itemsOf, if_neg h, List.foldl_nil]

theorem takePoints_items (s : State) {body : List Byte}
    (h : 1 ≤ field8 body 0 ∧ field8 body 0 ≤ 8 ∧ body.length = 1 + 6 * field8 body 0) :
    s.takePoints body = (s.afterItems body (field8 body 0)).settleLamps := by
  simp only [State.takePoints, itemsOf, if_pos h, State.afterItems]

/-- Settles O48: the state after each item is the one before it with `takeItem_itemTaken`'s change. -/
theorem pointsFrameTakesItsItemsInOrder : Obligations.PointsFrameTakesItsItemsInOrder := by
  rintro n dest body s w count ha hn hk rfl rfl
  refine ⟨fun hbad hsettled => ?malformed, fun hgood => ?items⟩
  case malformed =>
    rw [exec_pointsFrame ha hn, takePoints_malformed _ hbad,
      settleLamps_of_settled (hsettled.passedOn _)]
  case items =>
    refine ⟨_, (s.passedOn ⟨0x02, dest, 63, body⟩).afterItems body,
      (exec_pointsFrame ha hn dest body).trans (congrArg _ (takePoints_items _ hgood)), rfl,
      fun k _ => ?_, rfl, onlyRedriven_settleLamps rfl⟩
    have hdistinct : KeysDistinct ((s.passedOn ⟨0x02, dest, 63, body⟩).afterItems body k).points :=
      KeysDistinct.of_keys (by rw [passedOn_points]; exact hk.distinct) (afterItems_keys _ body k)
    rw [afterItems_succ]
    exact takeItem_itemTaken hdistinct (itemAt body k)

end Sys2Proof.Machine
end

section
/-! An accepted marker (R123): the travel advance (R35), the silence counts (R53) and the judgement (R119), step
by step. -/

namespace Sys2Proof.Machine

/-! ### The travel advance (R35) -/

/-- An entry whose travel count rises by one. -/
def PointEntry.advanced (e : PointEntry) : PointEntry := { e with travel := e.travel + 1 }

/-- An entry whose travel count rises, evaluated where that brings it to its limit. -/
def PointEntry.ticked (now : Stamp) (e : PointEntry) : PointEntry :=
  if e.advanced.atTravelLimit then e.advanced.evaluated now else e.advanced

/-- The alarm board after the travel count of an entry rises. -/
def AlarmBoard.ticked (now : Stamp) (x : AlarmBoard) (e : PointEntry) : AlarmBoard :=
  if e.advanced.atTravelLimit then x.evaluated now e.advanced else x

theorem ticked_key (now : Stamp) (e : PointEntry) : (e.ticked now).key = e.key := by
  unfold PointEntry.ticked
  split
  · exact evaluated_key now _
  · rfl

theorem advanceTravel_alarmSide (s : State) (k : Key) : AlarmSide s (s.advanceTravel k) := by
  unfold State.advanceTravel
  dsimp only
  repeat' split
  · exact AlarmSide.trans _ _ _ (rfl : AlarmSide s { s with
      points := modifyPoint k (fun e => { e with travel := e.travel + 1 }) s.points })
      (evaluatePoint_alarmSide _ k)
  · rfl
  · rfl

theorem advanceTravels_alarmSide (s arrival : State) : AlarmSide s (s.advanceTravels arrival) :=
  foldl_related _ .refl .trans _ advanceTravel_alarmSide _ _

theorem advanceTravel_eq {s : State} {k : Key} {e : PointEntry} (h : s.point k = some e) :
    s.advanceTravel k =
      if e.advanced.atTravelLimit
      then State.evaluatePoint k { s with points := modifyPoint k PointEntry.advanced s.points }
      else { s with points := modifyPoint k PointEntry.advanced s.points } := by
  have hpoint : State.point { s with points := modifyPoint k PointEntry.advanced s.points } k =
      some e.advanced := by
    rw [point_modifyPoint s k (f := PointEntry.advanced) fun _ => rfl, h, Option.map_some]
  unfold State.advanceTravel
  dsimp only
  split
  next x hx =>
    obtain rfl : x = e.advanced := Option.some.inj (hx.symm.trans hpoint)
    rfl
  next hnone => exact absurd (hpoint.symm.trans hnone) (Option.some_ne_none _)

theorem advanceTravel_effect {s : State} (hd : KeysDistinct s.points) {k : Key} {e : PointEntry}
    (h : s.point k = some e) :
    (s.advanceTravel k).points = modifyPoint k (PointEntry.ticked s.stamp) s.points ∧
    (s.advanceTravel k).board = s.board.ticked s.stamp e := by
  rw [modifyPoint_held hd h, advanceTravel_eq h, PointEntry.ticked, AlarmBoard.ticked]
  split
  · obtain ⟨hpoints, hboard⟩ :=
      modifyPoint_evaluatePoint hd h (f := PointEntry.advanced) (fun _ => rfl) rfl
    exact ⟨hpoints.trans (modifyPoint_held hd h _), hboard⟩
  · exact ⟨modifyPoint_held hd h _, rfl⟩

/-- The count of a DOUBLE entry stands at its limit once it has risen to it. -/
theorem advanced_atTravelLimit {e : PointEntry} {limit : Nat} {da : Bool} (hc : e.cls = .double limit da) :
    e.advanced.atTravelLimit = true ↔ e.travel + 1 = limit := by
  have hcls : e.advanced.cls = .double limit da := hc
  rw [PointEntry.atTravelLimit, hcls]
  exact beq_iff_eq

/-- The entries that travel when the marker arrives are those of R35. -/
theorem travelling_eq (s : State) (e : PointEntry) :
    (e.travelling && s.quality e == .good) = s.travels e := by
  unfold PointEntry.travelling State.travels
  cases e.cls with
  | double limit da =>
    rw [Bool.eq_iff_iff]
    simp only [Bool.and_eq_true, bne_iff_ne, decide_eq_true_eq]
    constructor
    · rintro ⟨⟨⟨hd, -⟩, hlt⟩, hq⟩
      exact ⟨⟨hd, hq⟩, hlt⟩
    · rintro ⟨⟨hd, hq⟩, hlt⟩
      exact ⟨⟨⟨hd, by omega⟩, hlt⟩, hq⟩
  | _ => rfl

/-- Only a DOUBLE entry travels. -/
theorem double_of_travels {s : State} {e : PointEntry} (h : s.travels e = true) :
    ∃ limit da, e.cls = .double limit da := by
  unfold State.travels at h
  split at h
  next limit da hc => exact ⟨limit, da, hc⟩
  next => cases h

theorem ticked_double {e : PointEntry} {limit : Nat} {da : Bool} (hc : e.cls = .double limit da)
    (now : Stamp) : e.ticked now =
      if e.travel + 1 = limit then PointEntry.evaluated now { e with travel := limit }
      else { e with travel := e.travel + 1 } := by
  rw [PointEntry.ticked]
  refine (if_congr (advanced_atTravelLimit hc) rfl rfl).trans ?_
  split
  next hlimit => subst hlimit; rfl
  next => rfl

theorem board_ticked_double {e : PointEntry} {limit : Nat} {da : Bool} (hc : e.cls = .double limit da)
    (now : Stamp) (x : AlarmBoard) : x.ticked now e =
      if e.travel + 1 = limit then x.evaluated now { e with travel := limit } else x := by
  rw [AlarmBoard.ticked]
  refine (if_congr (advanced_atTravelLimit hc) rfl rfl).trans ?_
  split
  next hlimit => subst hlimit; rfl
  next => rfl

theorem afterTravel_eq (s : State) (now : Stamp) :
    s.afterTravel now = s.points.map fun e => if s.travels e then e.ticked now else e := by
  refine List.map_congr_left fun e _ => ?_
  cases ht : s.travels e with
  | true =>
    obtain ⟨limit, da, hc⟩ := double_of_travels ht
    rw [if_pos rfl, ticked_double hc]
    split
    next limit' da' hc' =>
      obtain ⟨rfl, -⟩ := PointClass.double.inj (hc.symm.trans hc')
      rfl
    next hother => exact absurd hc (hother limit da)
  | false => split <;> rfl

theorem stuckNow_foldl (s : State) (now : Stamp) (x : AlarmBoard) :
    s.stuckNow.foldl (AlarmBoard.evaluated now) x =
      (s.points.filter s.travels).foldl (AlarmBoard.ticked now) x := by
  rw [State.stuckNow, List.foldl_filterMap]
  refine List.foldl_ext _ _ _ fun x e he => ?_
  obtain ⟨limit, da, hc⟩ := double_of_travels (List.mem_filter.1 he).2
  rw [board_ticked_double hc]
  by_cases hlimit : e.travel + 1 = limit <;> simp [hc, hlimit]

/-- The travel advance of all entries, in the words of R35. -/
theorem advanceTravels_effect {s arrival : State} (hd : KeysDistinct s.points)
    (hp : arrival.points = s.points) {now : Stamp} (hnow : s.stamp = now) :
    (s.advanceTravels arrival).points = arrival.afterTravel now ∧
    (s.advanceTravels arrival).board = arrival.stuckNow.foldl (AlarmBoard.evaluated now) s.board := by
  have hfold := foldl_entries (fun s k => s.advanceTravel k) (PointEntry.ticked now) (ticked_key now)
    State.board (AlarmBoard.ticked now) (fun u => u.stamp = now)
    (by
      intro u k e hu hdu he
      obtain ⟨hpoints, hboard⟩ := advanceTravel_effect hdu he
      rw [hu] at hpoints hboard
      exact ⟨hpoints, hboard, (advanceTravel_alarmSide u k).stamp.trans hu⟩)
    (arrival.points.filter arrival.travels) s hnow hd ((hp ▸ hd).filter _)
    (fun e he => hp ▸ (List.mem_filter.1 he).1)
  have hes : (arrival.points.filter fun e => e.travelling && arrival.quality e == .good) =
      arrival.points.filter arrival.travels := by simp only [travelling_eq]
  rw [State.advanceTravels, hes]
  obtain ⟨hboard, hpoints⟩ := hfold
  refine ⟨hpoints.trans ?_, hboard.trans ?_⟩
  · rw [afterTravel_eq, ← hp]
    refine List.map_congr_left fun e he => ?_
    simp only [mem_filter_key (hp ▸ hd : KeysDistinct arrival.points) arrival.travels he]
  · exact (stuckNow_foldl arrival now _).symm

/-! ### The silence counts (R52, R53) -/

/-- A cause that occurs once for each member of a list touches the reports alone. -/
theorem foldl_occur {α : Type} (c : Condition) : ∀ (l : List α) (s : State),
    l.foldl (fun s _ => s.occur c) s =
      { s with reports := l.foldl (fun r _ => r.occur s.stamp c) s.reports }
  | [], _ => rfl
  | _ :: l, s => (foldl_occur c l (s.occur c)).trans rfl

theorem reaches_eq (limit : Nat) (o : OutstationEntry) :
    o.reaches limit = (o.silence + 1 == limit) := by
  rw [OutstationEntry.reaches, Bool.eq_iff_iff]
  simp only [Bool.and_eq_true, bne_iff_ne, beq_iff_eq]
  omega

/-- Silence counting, in the words of R53: the counts, and the cause once for each outstation brought to the
stale limit. -/
theorem countSilence_eq (s : State) : s.countSilence = { s with
    outstations := s.outstations.map (·.hush s.staleLimit)
    reports := (s.outstations.filter fun o => o.silence + 1 == s.staleLimit).foldl
      (fun r _ => r.caused s.stamp .staleOutstation) s.reports } := by
  rw [State.countSilence, foldl_occur, Reports.caused_eq]
  simp only [reaches_eq]
  rfl

/-! ### The judgement (R118, R119, R123) -/

/-- The marker is early in IN_STEP and brings the skew count to its limit (R119). -/
def State.skewsOut (s : State) : Prop :=
  s.supervisor.state = .inStep ∧ s.supervisor.skews + 1 = s.supervisor.skewLimit ∧
    ∃ ref, s.supervisor.reference = some ref ∧ s.now + s.supervisor.window < ref + s.supervisor.period

theorem isEarly_iff (v : Supervisor) (now : Nat) :
    v.isEarly now = true ↔ ∃ ref, v.reference = some ref ∧ now + v.window < ref + v.period := by
  unfold Supervisor.isEarly
  cases v.reference with
  | none => simp
  | some r =>
    simp only [decide_eq_true_eq, Option.some.injEq, exists_eq_left']
    omega

theorem early_stamp (s : State) :
    State.stamp { s with supervisor := s.supervisor.early } = s.stamp := by
  unfold State.stamp Supervisor.early
  split <;> rfl

/-- Outside LOST the judgement touches the supervisor, the generators and, at the skew limit, the reports. -/
theorem judgeMarker_of_not_lost {s : State} (h : s.supervisor.state ≠ .lost) (arrival : State) (sync : Bool)
    {skewed : Bool} (hskewed : skewed = true ↔ s.skewsOut) {t : State}
    (ht : t = s.judgeMarker arrival sync) :
    t.points = s.points ∧ t.alarms = s.alarms ∧ t.groups = s.groups ∧
      t.reports = if skewed then s.reports.caused s.stamp .markerSkew else s.reports := by
  have hplain (hnot : ¬ s.skewsOut) : skewed = false := Bool.eq_false_iff.2 (mt hskewed.1 hnot)
  subst ht
  unfold State.judgeMarker
  split
  next hs =>
    rw [hplain fun hout => by cases hs.symm.trans hout.1]
    exact ⟨rfl, rfl, rfl, rfl⟩
  next hs => exact absurd hs h
  next hs =>
    dsimp only
    split
    next hearly =>
      have href := (isEarly_iff _ _).1 hearly
      split
      next hreached =>
        rw [hskewed.2 ⟨hs, beq_iff_eq.1 hreached, href⟩, Reports.caused_eq]
        exact ⟨rfl, rfl, rfl, congrArg (fun now => s.reports.occur now .markerSkew) (early_stamp s)⟩
      next hreached =>
        rw [hplain fun hout => hreached (beq_iff_eq.2 hout.2.1)]
        exact ⟨rfl, rfl, rfl, rfl⟩
    next hearly =>
      rw [hplain fun hout => hearly ((isEarly_iff _ _).2 hout.2.2)]
      split <;> exact ⟨rfl, rfl, rfl, rfl⟩

/-! ### The marker accepted (R123) -/

/-- Step 1 of an accepted marker: its cycle number recorded, the stamp offset restarted (R126). -/
def State.marked (s : State) (cycle : Nat) : State :=
  { s with supervisor := s.supervisor.record cycle s.now }

theorem marked_stamp (s : State) (cycle : Nat) : (s.marked cycle).stamp = ⟨cycle, 0⟩ := by
  have hoffset : s.now - s.now = 0 := Nat.sub_self _
  change (⟨cycle, min 65535 (s.now - s.now)⟩ : Stamp) = _
  rw [hoffset]
  rfl

/-- Steps 1 to 3 of an accepted marker: recorded, the travel counts advanced, the silence counted. -/
def State.beforeJudgement (s : State) (cycle : Nat) : State :=
  ((s.marked cycle).advanceTravels s).countSilence

theorem acceptMarker_eq (s : State) (cycle : Nat) (sync : Bool) :
    s.acceptMarker cycle sync = ((s.beforeJudgement cycle).judgeMarker s sync).settleLamps := rfl

/-- Steps 1 to 3 of an accepted marker, in the words of R35 and R53. -/
theorem beforeJudgement_eq {s : State} (hd : KeysDistinct s.points) {cycle : Nat} {stamp : Stamp}
    (hstamp : stamp = ⟨cycle, 0⟩) {x : AlarmBoard}
    (hx : x = s.stuckNow.foldl (AlarmBoard.evaluated stamp) s.board) : s.beforeJudgement cycle =
      { s.marked cycle with
        points := s.afterTravel stamp, alarms := x.alarms, groups := x.groups
        outstations := s.outstations.map (·.hush s.staleLimit)
        reports := (s.outstations.filter fun o => o.silence + 1 == s.staleLimit).foldl
          (fun r _ => r.caused stamp .staleOutstation) x.reports } := by
  have hmarked : (s.marked cycle).stamp = stamp := (marked_stamp s cycle).trans hstamp.symm
  have hside := advanceTravels_alarmSide (s.marked cycle) s
  obtain ⟨hpoints, hboard⟩ := advanceTravels_effect (s := s.marked cycle) (arrival := s) hd rfl hmarked
  rw [State.beforeJudgement, countSilence_eq, hside.stamp, hmarked, ← hpoints,
    show x = _ from hx.trans hboard.symm]
  generalize (s.marked cycle).advanceTravels s = a at hside ⊢
  have ha : a = _ := hside
  rw [ha]
  rfl

theorem travels_congr {s t : State} (ho : t.outstations = s.outstations)
    (hv : t.supervisor = s.supervisor) : t.travels = s.travels := by
  funext e
  simp only [State.travels, quality_congr ho hv]

/-- In LOST no quality is GOOD (R47). -/
theorem quality_ne_good_of_lost {s : State} (h : s.supervisor.state = .lost) (e : PointEntry) :
    s.quality e ≠ .good := by
  unfold State.quality
  rw [if_pos (Or.inl h : s.supervisor.state = .lost ∨ s.staleFlag e.key.outstation = true)]
  repeat' split
  all_goals exact Quality.noConfusion

/-- No entry travels in LOST (R35). -/
theorem travels_of_lost {s : State} (h : s.supervisor.state = .lost) : s.travels = fun _ => false := by
  funext e
  unfold State.travels
  split
  · rw [beq_false_of_ne (quality_ne_good_of_lost h e), Bool.and_false, Bool.false_and]
  · rfl

/-- An accepted marker outside LOST, in the words of R35, R53 and R119. -/
theorem acceptMarker_of_not_lost {s : State} (hd : KeysDistinct s.points)
    (h : s.supervisor.state ≠ .lost) {cycle : Nat} (sync : Bool) {stamp : Stamp}
    (hstamp : stamp = ⟨cycle, 0⟩) {skewed : Bool} (hskewed : skewed = true ↔ s.skewsOut)
    {x : AlarmBoard} (hx : x = s.stuckNow.foldl (AlarmBoard.evaluated stamp) s.board) {r : Reports}
    (hr : r = (s.outstations.filter fun o => o.silence + 1 == s.staleLimit).foldl
      (fun r _ => r.caused stamp .staleOutstation) x.reports) {t : State}
    (ht : t = s.acceptMarker cycle sync) :
    t.points = s.afterTravel stamp ∧ t.alarms = x.alarms ∧ t.groups = x.groups ∧
      t.reports = if skewed then r.caused stamp .markerSkew else r := by
  have hu := beforeJudgement_eq hd hstamp hx
  have hreports : (s.beforeJudgement cycle).reports = r := by rw [hu, hr]
  have hnow : (s.beforeJudgement cycle).stamp = stamp := by
    rw [hu]
    exact (marked_stamp s cycle).trans hstamp.symm
  obtain ⟨hpoints, halarms, hgroups, hjudged⟩ :=
    judgeMarker_of_not_lost (s := s.beforeJudgement cycle) (skewed := skewed) (by rw [hu]; exact h) s sync
      (by rw [hu]; exact hskewed) rfl
  rw [hreports, hnow] at hjudged
  subst ht
  exact ⟨hpoints.trans (by rw [hu]), halarms.trans (by rw [hu]), hgroups.trans (by rw [hu]), hjudged⟩

/-- Quality return with the lamps settled after it, from the state as the supervisor and the outstations stand
at its end. -/
theorem settled_returned {before now : State} (hd : KeysDistinct now.points) (scope : PointEntry → Bool)
    {t : State} (ht : t = (now.qualityReturn before scope).settleLamps) :
    Returned before { now with supervisor := t.supervisor, outstations := t.outstations } t scope := by
  have hside := qualityReturn_alarmSide now before scope
  have hreturned := qualityReturn_returned (before := before) scope hd
  rw [ht, State.settleLamps_supervisor, State.settleLamps_outstations, hside.supervisor, hside.outstations]
  exact ⟨hreturned.points, hreturned.board⟩

/-- Of the state before it, quality return asks the qualities alone (R58). -/
theorem Returned.of_quality {before before' now t : State} {scope : PointEntry → Bool}
    (h : Returned before now t scope) (hq : ∀ e, before'.quality e = before.quality e) :
    Returned before' now t scope := by
  refine ⟨h.points.trans ?_, h.board.trans ?_⟩
  · simp only [afterReturn, hq]
  · simp only [hq]

/-- An accepted marker in LOST: the causes of R53, then quality return to every point (R58, R123). -/
theorem acceptMarker_of_lost {s : State} (hd : KeysDistinct s.points)
    (h : s.supervisor.state = .lost) {cycle : Nat} (sync : Bool) {stamp : Stamp}
    (hstamp : stamp = ⟨cycle, 0⟩) {r : Reports}
    (hr : r = (s.outstations.filter fun o => o.silence + 1 == s.staleLimit).foldl
      (fun r _ => r.caused stamp .staleOutstation) s.reports) {t : State}
    (ht : t = s.acceptMarker cycle sync) :
    Returned s { s with supervisor := t.supervisor, outstations := t.outstations, reports := r } t
      fun _ => true := by
  have hnone : s.points.filter s.travels = [] := by rw [travels_of_lost h, List.filter_false]
  have hpoints : s.afterTravel stamp = s.points := by
    rw [afterTravel_eq, travels_of_lost h]
    exact List.map_id' _
  have hu := beforeJudgement_eq hd hstamp (x := s.board) (by rw [stuckNow_foldl, hnone]; rfl)
  rw [hpoints] at hu
  have hjudged : (s.beforeJudgement cycle).judgeMarker s sync = State.qualityReturn
      { s.beforeJudgement cycle with
        supervisor := (s.beforeJudgement cycle).supervisor.start (s.beforeJudgement cycle).now }
      s anyEntry := by
    rw [State.judgeMarker, show (s.beforeJudgement cycle).supervisor.state = .lost by rw [hu]; exact h]
  have hdu : KeysDistinct (s.beforeJudgement cycle).points := by
    rw [hu]
    exact hd
  rw [acceptMarker_eq, hjudged] at ht
  have hreturned := settled_returned (now := { s.beforeJudgement cycle with
    supervisor := (s.beforeJudgement cycle).supervisor.start (s.beforeJudgement cycle).now })
    hdu anyEntry ht
  rw [hu] at hreturned
  subst hr
  exact hreturned

theorem stuckNow_congr {s t : State} (hp : t.points = s.points) (ho : t.outstations = s.outstations)
    (hv : t.supervisor = s.supervisor) : t.stuckNow = s.stuckNow := by
  rw [State.stuckNow, State.stuckNow, hp, travels_congr ho hv]

theorem afterTravel_congr {s t : State} (hp : t.points = s.points) (ho : t.outstations = s.outstations)
    (hv : t.supervisor = s.supervisor) (now : Stamp) : t.afterTravel now = s.afterTravel now := by
  rw [afterTravel_eq, afterTravel_eq, hp, travels_congr ho hv]

/-- Settles O46: the marker's steps taken one after another, in LOST and outside it. -/
theorem markerAdvancesTravelAndReturnsQuality : Obligations.MarkerAdvancesTravelAndReturnsQuality := by
  rintro n dest body s w stamp skewed x r ha hn hk hw hlen hstamp hskewed hx hr
  have hexec : exec (.cycleMarker dest 63 body) s =
      .next (w.acceptMarker (field16 body 0) (field8 body 2 % 2 == 1)) := by
    rw [exec_cycleMarker ha hn, ← hw, State.takeCycle, if_pos hlen]
  have hp : w.points = s.points := by rw [hw, passedOn_points]
  have ho : w.outstations = s.outstations := by rw [hw, passedOn_outstations]
  have hv : w.supervisor = s.supervisor := by rw [hw, passedOn_supervisor]
  have hd : KeysDistinct w.points := by rw [hp]; exact hk.distinct
  rw [← stuckNow_congr hp ho hv] at hx
  rw [← ho, ← show w.staleLimit = s.staleLimit by rw [hw, passedOn_staleLimit]] at hr
  refine ⟨_, hexec, fun hstate => ?marked, fun hstate => ?returned⟩
  case marked =>
    have hout : skewed = true ↔ w.skewsOut := by
      rw [hskewed, State.skewsOut, hv, now_congr (show w.clock = s.clock by rw [hw, passedOn_clock])]
    rw [← afterTravel_congr hp ho hv stamp]
    exact acceptMarker_of_not_lost hd (by rwa [hv]) _ hstamp hout hx hr rfl
  case returned =>
    have hlost : w.supervisor.state = .lost := by rwa [hv]
    have hboard : x = w.board := by
      rw [hx, stuckNow_foldl, travels_of_lost hlost, List.filter_false]
      rfl
    have hreturned := acceptMarker_of_lost hd hlost (field8 body 2 % 2 == 1) hstamp
      (r := r) (by rw [hr, hboard]; rfl) rfl
    exact hreturned.of_quality fun e => (quality_congr ho hv e).symm

end Sys2Proof.Machine
end

section
/-! HARDWARE_RESET (R159, R168, R171, R184): when an input gives one, and what it leaves. -/

namespace Sys2Proof.Machine

/-- Only a RESET pulse under 10 µs gives no reset (R171). -/
theorem givesReset_iff (source : ResetSource) :
    givesReset source = true ↔ ∀ low, source = .resetPin low → 10 ≤ low := by
  cases source with
  | resetPin lowFor =>
    refine decide_eq_true_iff.trans ⟨fun h low hlow => ?_, fun h => h lowFor rfl⟩
    exact ResetSource.resetPin.inj hlow ▸ h
  | detector => exact ⟨fun _ _ h => ResetSource.noConfusion h, fun _ => rfl⟩
  | resetPinAtPowerUp => exact ⟨fun _ _ h => ResetSource.noConfusion h, fun _ => rfl⟩

theorem exec_hardwareReset (source : ResetSource) (straps : BitVec 6) (s : State) :
    exec (.hardwareReset source straps) s =
      .next (if givesReset source then s.hardwareReset source straps else s.granted) := by
  change execHardwareReset source straps s = _
  unfold execHardwareReset
  split <;> rfl

/-- The STARTED record of start-up is due at an ASSIGNED controller, with the cause of R184's table. -/
theorem hardwareReset_startDue (s : State) (source : ResetSource) (straps : BitVec 6) :
    (s.hardwareReset source straps).startDue =
      if straps = 0 ∨ straps = 63 then none else some (causeOfReset source) := by
  change (if (stationOfStraps straps).isSome then some (causeOfReset source) else none) = _
  unfold stationOfStraps
  split <;> rfl

/-- A line settles from the reset on; the level outside its pin is not the part's to reset (R137, R140). -/
theorem hardwareReset_line (s : State) (source : ResetSource) (straps : BitVec 6) (i : Fin 8) :
    (s.hardwareReset source straps).line i = Line.reset (s.line i).pin := by
  change (Table.mapIdx _ (Table.mapIdx _ s.panel.lines))[i.val] = _
  rw [Table.mapIdx_getElem, Table.mapIdx_getElem]
  rfl

/-- Settles O4: the reset values of `State.afterReset`, block by block. -/
theorem hardwareResetGivesEveryBlockItsValues : Obligations.HardwareResetGivesEveryBlockItsValues := by
  intro source straps s
  rw [exec_hardwareReset]
  refine ⟨fun low hlow hshort hn => ?short, fun hlong => ?reset⟩
  case short =>
    have hnone : ¬ givesReset source = true := fun h =>
      absurd ((givesReset_iff source).1 h low hlow) (by omega)
    rw [if_neg hnone, granted_of_noGrantDue hn]
  case reset =>
    rw [if_pos ((givesReset_iff source).2 hlong)]
    refine ⟨_, rfl, rfl, rfl, rfl, rfl, ?cause, rfl, rfl, rfl, rfl, rfl, rfl, rfl,
      fun g hg => Vector.getElem_replicate hg, rfl, fun c hc => Vector.getElem_replicate hc,
      rfl, rfl, rfl, rfl, hardwareReset_line s source straps, rfl, rfl, rfl⟩
    rw [hardwareReset_startDue]
    cases source <;> rfl

end Sys2Proof.Machine
end

section
/-! The laws of loop time (R52, R53, R115, R127, R130), block by block: what each change of the supervisor, of a
generator and of an outstation's silence keeps. -/

namespace Sys2Proof.Machine

/-! ### The Cycle Supervisor (R115 to R125) -/

/-- The supervisor stands within its laws (R115, R124). -/
structure SupervisorLawful (v : Supervisor) : Prop where
  reference : v.reference = none ↔ v.state = .noSync
  period : 100 ≤ v.period ∧ v.period ≤ 5000 ∧ v.period % 10 = 0
  window : 10 ≤ v.window ∧ 2 * v.window ≤ v.period
  misses : v.misses ≤ v.missLimit ∧ v.missLimit ≤ 255
  skews : v.skews ≤ v.skewLimit ∧ v.skewLimit ≤ 255
  cycle : v.cycle ≤ 65535

namespace SupervisorLawful

variable {v : Supervisor} (h : SupervisorLawful v)
include h

theorem record {cycle : Nat} (hc : cycle ≤ 65535) (now : Nat) : SupervisorLawful (v.record cycle now) :=
  { h with cycle := hc }

theorem start (now : Nat) : SupervisorLawful (v.start now) :=
  { h with
    reference := ⟨fun hn => absurd hn (Option.some_ne_none _), Supervision.noConfusion⟩
    misses := ⟨Nat.zero_le _, h.misses.2⟩, skews := ⟨Nat.zero_le _, h.skews.2⟩ }

/-- A reference goes with supervision that is not NO_SYNC, and takes the place of another (R115). -/
theorem withReference (hs : v.state ≠ .noSync) (reference : Nat) :
    SupervisorLawful { v with reference := some reference } :=
  { h with reference := ⟨fun hn => absurd hn (Option.some_ne_none _), fun hn => absurd hn hs⟩ }

theorem inWindow (hs : v.state ≠ .noSync) (now : Nat) : SupervisorLawful (v.inWindow now) :=
  { h.withReference hs now with
    misses := ⟨Nat.zero_le _, h.misses.2⟩, skews := ⟨Nat.zero_le _, h.skews.2⟩ }

theorem early : SupervisorLawful v.early := by
  unfold Supervisor.early
  split
  next hlt => exact { h with skews := ⟨hlt, h.skews.2⟩ }
  next => exact h

theorem unsync : SupervisorLawful v.unsync :=
  { h with
    reference := ⟨fun _ => rfl, fun _ => rfl⟩
    misses := ⟨Nat.zero_le _, h.misses.2⟩, skews := ⟨Nat.zero_le _, h.skews.2⟩ }

theorem miss (hs : v.state ≠ .noSync) : SupervisorLawful v.miss := by
  unfold Supervisor.miss
  repeat' split
  · exact h
  next hlt => exact { h with misses := ⟨Nat.le_of_lt hlt, h.misses.2⟩ }
  next =>
    exact { h with
      reference := ⟨fun hn => absurd (h.reference.1 hn) hs, Supervision.noConfusion⟩
      misses := ⟨Nat.le_refl _, h.misses.2⟩ }

end SupervisorLawful

theorem timingField_lawful {b : List Byte} {t : Timing} (h : timingField b = some t) :
    (100 ≤ t.period ∧ t.period ≤ 5000 ∧ t.period % 10 = 0) ∧ (10 ≤ t.window ∧ 2 * t.window ≤ t.period) ∧
      t.missLimit ≤ 255 ∧ t.skewLimit ≤ 255 := by
  unfold timingField at h
  dsimp only at h
  split at h
  next hrange =>
    cases h
    obtain ⟨hlow, hhigh, htens, hwindow, htwice⟩ := hrange
    exact ⟨⟨hlow, hhigh, htens⟩, ⟨hwindow, htwice⟩, Nat.le_of_lt_succ (field8_lt b 4),
      Nat.le_of_lt_succ (field8_lt b 5)⟩
  next => cases h

/-- SET TIMING keeps the laws with every timing that its field reads (R124). -/
theorem SupervisorLawful.setTiming {s : State} (h : SupervisorLawful s.supervisor) {b : List Byte}
    {t : Timing} (ht : timingField b = some t) : SupervisorLawful (s.setTiming t).supervisor := by
  obtain ⟨hperiod, hwindow, hmiss, hskew⟩ := timingField_lawful ht
  exact {
    reference := Option.map_eq_none_iff.trans h.reference
    period := hperiod, window := hwindow
    misses := ⟨Nat.zero_le _, hmiss⟩, skews := ⟨Nat.zero_le _, hskew⟩, cycle := h.cycle }

/-! ### The Cadence Generators (R127 to R133) -/

/-- The times of a cadence lie in the range that SET CADENCE clamps them into (R129). -/
def CadenceTimes.Lawful (t : CadenceTimes) : Prop := 1 ≤ t.on ∧ t.on ≤ 250 ∧ 1 ≤ t.off ∧ t.off ≤ 250

theorem cadenceTimesField_lawful (b : List Byte) : (cadenceTimesField b).Lawful := by
  have hclamp : ∀ n, 1 ≤ clamp 1 250 n ∧ clamp 1 250 n ≤ 250 := fun n => by unfold clamp; omega
  exact ⟨(hclamp _).1, (hclamp _).2, (hclamp _).1, (hclamp _).2⟩

namespace GeneratorLawful

variable {g : Generator} (h : GeneratorLawful g)
include h

theorem applyReload : GeneratorLawful g.applyReload where
  times := by
    unfold Generator.applyReload
    cases hr : g.reload with
    | none => exact h.times
    | some t => exact h.reload t hr
  reload _ ht := by cases ht
  stopped := h.stopped
  settled _ := rfl

/-- A generator that is not STOPPED has a phase, and takes another (R127). -/
theorem begin (hrun : g.run ≠ .stopped) (p : Phase) (now : Nat) : GeneratorLawful (g.begin p now) :=
  { h with stopped := ⟨fun hs => absurd hs hrun, fun hp => absurd hp (Option.some_ne_none _)⟩ }

theorem stop : GeneratorLawful g.stop :=
  { h.applyReload with stopped := ⟨fun _ => rfl, fun _ => rfl⟩, settled := fun _ => rfl }

theorem realign (now : Nat) : GeneratorLawful (g.realign now) := by
  unfold Generator.realign
  split
  next hrun => exact h.applyReload.begin (by simp [Generator.applyReload, hrun]) _ _
  next => exact h.stop
  next => exact h

theorem endPhase (hphase : g.phase ≠ none) (ended : Phase) (now : Nat) :
    GeneratorLawful (g.endPhase ended now) := by
  have hrun : g.run ≠ .stopped := fun hs => hphase (h.stopped.1 hs)
  unfold Generator.endPhase
  split
  · exact h.begin hrun _ _
  · exact h.stop
  · exact h.applyReload.begin hrun _ _

theorem set {times : CadenceTimes} (ht : times.Lawful) (run : Bool) (now : Nat) :
    GeneratorLawful (g.set times run now) := by
  unfold Generator.set
  split
  next hstopped =>
    have retimed : GeneratorLawful { g with times := times, reload := none } :=
      { h with
        times := ht, reload := fun _ hr => absurd hr (Option.some_ne_none _).symm
        settled := fun _ => rfl }
    cases run with
    | false => exact retimed
    | true =>
      exact { retimed with
        stopped := ⟨RunState.noConfusion, fun hp => absurd hp (Option.some_ne_none _)⟩
        settled := fun _ => rfl }
  next hrun =>
    have hphase : g.phase ≠ none := fun hp => hrun (h.stopped.2 hp)
    have hnext : (if run then RunState.running else .stopping) ≠ .stopped := by cases run <;> decide
    exact { h with
      reload := fun t hr => Option.some.inj hr ▸ ht
      stopped := ⟨fun hs => absurd hs hnext, fun hp => absurd hp hphase⟩
      settled := fun hs => absurd hs hnext }

end GeneratorLawful

theorem generatorLawful_reset {on off : Nat} (h : CadenceTimes.Lawful ⟨on, off⟩) :
    GeneratorLawful (Generator.reset on off) where
  times := h
  reload _ ht := by cases ht
  stopped := ⟨RunState.noConfusion, fun hp => absurd hp (Option.some_ne_none _)⟩
  settled _ := rfl

/-! ### Silence counts (R52 to R54) -/

/-- An outstation's silence count stays within the stale limit, and it is stale exactly at a limit that is
not 0 (R52, R53). -/
def SilenceLawful (limit : Nat) (o : OutstationEntry) : Prop :=
  o.silence ≤ limit ∧ (o.stale = true ↔ limit ≠ 0 ∧ o.silence = limit)

/-- An outstation just heard from is lawful under any limit. -/
theorem silenceLawful_heard {o : OutstationEntry} (h0 : o.silence = 0) (hs : o.stale = false)
    (limit : Nat) : SilenceLawful limit o := by
  refine ⟨by omega, fun h => ?_, fun ⟨hn, he⟩ => absurd (he.symm.trans h0) hn⟩
  rw [hs] at h
  exact absurd h Bool.false_ne_true

theorem SilenceLawful.hush {limit : Nat} {o : OutstationEntry} (h : SilenceLawful limit o) :
    SilenceLawful limit (o.hush limit) := by
  obtain ⟨hle, hstale⟩ := h
  unfold OutstationEntry.hush
  split
  next hcount =>
    obtain ⟨hn, hlt⟩ := hcount
    refine ⟨hlt, ?_⟩
    dsimp only
    split
    next heq => exact ⟨fun _ => ⟨hn, heq⟩, fun _ => rfl⟩
    next hne => exact ⟨fun hs => absurd (hstale.1 hs).2 (Nat.ne_of_lt hlt), fun hs => absurd hs.2 hne⟩
  next => exact ⟨hle, hstale⟩

/-- An outstation entry changed, or one just created, under the law (R12, R20). -/
theorem gainPoint_silence {s : State} {limit : Nat} (h : ∀ o ∈ s.outstations, SilenceLawful limit o)
    (n : Nat) : ∀ o ∈ (s.gainPoint n).outstations, SilenceLawful limit o := by
  intro o ho
  unfold State.gainPoint at ho
  split at ho
  · obtain ⟨x, hx, rfl⟩ := List.mem_map.1 ho
    split
    · exact h x hx
    · exact h x hx
  · rcases List.mem_cons.1 ((insertOutstation_perm _ _).mem_iff.1 ho) with rfl | ho
    · exact silenceLawful_heard rfl rfl limit
    · exact h o ho

theorem losePoint_silence {s : State} {limit : Nat} (h : ∀ o ∈ s.outstations, SilenceLawful limit o)
    (n : Nat) : ∀ o ∈ (s.losePoint n).outstations, SilenceLawful limit o := by
  intro o ho
  obtain ⟨x, hx, rfl⟩ := List.mem_map.1 (List.mem_of_mem_filter ho)
  split
  · exact h x hx
  · exact h x hx

end Sys2Proof.Machine
end

section
/-! What keeps the laws of loop time: every operation of the part but a hardware reset leaves an ASSIGNED
controller ASSIGNED, and the supervisor, the silence counts and the generators within their laws. -/

namespace Sys2Proof.Machine

/-- The stale limit and the silence counts under it stay within their laws (R52 to R54). -/
def SilencesLawful (s : State) : Prop :=
  s.staleLimit ≤ 255 ∧ ∀ o ∈ s.outstations, SilenceLawful s.staleLimit o

def GeneratorsLawful (s : State) : Prop := ∀ c, GeneratorLawful (s.generators.get c)

/-- The laws of loop time, block by block. -/
theorem timeLawful_iff (s : State) :
    TimeLawful s ↔ SupervisorLawful s.supervisor ∧ SilencesLawful s ∧ GeneratorsLawful s where
  mp h := ⟨⟨h.reference, h.period, h.window, h.misses, h.skews, h.cycle⟩, ⟨h.staleLimit, h.silence⟩,
    h.generators⟩
  mpr := fun ⟨hv, ⟨hlimit, hsilence⟩, hg⟩ => { hv with
    staleLimit := hlimit, silence := hsilence, generators := hg }

/-- An ASSIGNED controller stays so, and each block of loop time keeps its law. -/
structure LoopStands (s t : State) : Prop where
  assigned : s.assigned = true → t.assigned = true
  supervisor : SupervisorLawful s.supervisor → SupervisorLawful t.supervisor
  silences : SilencesLawful s → SilencesLawful t
  generators : GeneratorsLawful s → GeneratorsLawful t

theorem TimeLawful.stand {s t : State} (h : TimeLawful s) (hs : LoopStands s t) : TimeLawful t := by
  rw [timeLawful_iff] at h ⊢
  obtain ⟨hv, ho, hg⟩ := h
  exact ⟨hs.supervisor hv, hs.silences ho, hs.generators hg⟩

/-- What loop time is read from: the station number, the supervisor, the generators, the stale limit and the
outstations. -/
def State.loopSide (s : State) : Option Byte × Supervisor × Generators × Nat × List OutstationEntry :=
  (s.port.station, s.supervisor, s.generators, s.staleLimit, s.outstations)

namespace LoopStands

theorem refl (s : State) : LoopStands s s := ⟨id, id, id, id⟩

theorem trans {s t u : State} (h : LoopStands s t) (h' : LoopStands t u) : LoopStands s u where
  assigned hs := h'.assigned (h.assigned hs)
  supervisor hs := h'.supervisor (h.supervisor hs)
  silences hs := h'.silences (h.silences hs)
  generators hs := h'.generators (h.generators hs)

theorem same {s t : State} (h : t.loopSide = s.loopSide) : LoopStands s t := by
  simp only [State.loopSide, Prod.mk.injEq] at h
  obtain ⟨hn, hv, hg, hl, ho⟩ := h
  refine ⟨?_, ?_, ?_, ?_⟩
  · rw [State.assigned, State.assigned, hn]; exact id
  · rw [hv]; exact id
  · rw [SilencesLawful, SilencesLawful, hl, ho]; exact id
  · rw [GeneratorsLawful, GeneratorsLawful, hg]; exact id

theorem of_alarmSide {s t : State} (h : AlarmSide s t) : LoopStands s t := by
  refine same ?_
  rw [h]
  rfl

theorem foldl {α : Type} {f : State → α → State} (h : ∀ s a, LoopStands s (f s a)) (l : List α)
    (s : State) : LoopStands s (l.foldl f s) :=
  foldl_related LoopStands refl (fun _ _ _ => trans) f h l s

theorem ite {p : Prop} [Decidable p] {s t u : State} (ht : LoopStands s t) (hu : LoopStands s u) :
    LoopStands s (if p then t else u) := by
  split
  · exact ht
  · exact hu

/-- What keeps the laws keeps them with the lamps settled after it. -/
theorem settled {s t : State} (h : LoopStands s t) : LoopStands s t.settleLamps := h.trans (same rfl)

end LoopStands

/-! ### Single blocks changed -/

theorem withSupervisor_loopStands (s : State) {v : Supervisor}
    (hv : SupervisorLawful s.supervisor → SupervisorLawful v) : LoopStands s { s with supervisor := v } :=
  ⟨id, hv, id, id⟩

theorem withOutstations_loopStands (s : State) {l : List OutstationEntry}
    (hl : (∀ o ∈ s.outstations, SilenceLawful s.staleLimit o) → ∀ o ∈ l, SilenceLawful s.staleLimit o) :
    LoopStands s { s with outstations := l } :=
  ⟨id, id, fun ⟨hlimit, ho⟩ => ⟨hlimit, hl ho⟩, id⟩

theorem mapOutstations_loopStands (s : State) {f : OutstationEntry → OutstationEntry}
    (hf : ∀ o, SilenceLawful s.staleLimit o → SilenceLawful s.staleLimit (f o)) :
    LoopStands s { s with outstations := s.outstations.map f } :=
  withOutstations_loopStands s fun ho o hm => by
    obtain ⟨x, hx, rfl⟩ := List.mem_map.1 hm
    exact hf x (ho x hx)

theorem modifyOutstation_loopStands (s : State) (n : Nat) {f : OutstationEntry → OutstationEntry}
    (hf : ∀ o, SilenceLawful s.staleLimit o → SilenceLawful s.staleLimit (f o)) :
    LoopStands s { s with outstations := modifyOutstation n f s.outstations } :=
  mapOutstations_loopStands s fun o ho => by
    split
    · exact hf o ho
    · exact ho

theorem withGenerators_loopStands (s : State) {g : Generators}
    (hg : GeneratorsLawful s → ∀ c, GeneratorLawful (g.get c)) :
    LoopStands s { s with generators := g } :=
  ⟨id, id, id, hg⟩

theorem modifyGenerator_loopStands (s : State) (c : Cadence) {f : Generator → Generator}
    (hf : GeneratorLawful (s.generators.get c) → GeneratorLawful (f (s.generators.get c))) :
    LoopStands s { s with generators := s.generators.modify c f } :=
  withGenerators_loopStands s fun hg d => by
    rw [Generators.modify_get]
    split
    next heq => exact heq ▸ hf (hg c)
    next => exact hg d

theorem realign_loopStands (s : State) : LoopStands s s.realign :=
  withGenerators_loopStands s fun hg c => by
    rw [Generators.map_get]
    exact (hg c).realign _

/-! ### Records, causes and the lamps -/

theorem record_loopStands (s : State) (d : RecordData) : LoopStands s (s.record d) := .same rfl

theorem occur_loopStands (s : State) (c : Condition) : LoopStands s (s.occur c) := .same rfl

theorem advanceTo_loopStands (s : State) (us : Nat) : LoopStands s (s.advanceTo us) := .same rfl

theorem mapChannels_loopStands (s : State) (f : Nat → Channel → Channel) :
    LoopStands s (s.mapChannels f) := .same rfl

theorem sense_loopStands (s : State) (expects : Nat → Channel → Option Bool) (currents : BitVec 256) :
    LoopStands s (s.sense expects currents) :=
  (mapChannels_loopStands s _).trans
    (.foldl (fun u _ => (record_loopStands u _).trans (occur_loopStands _ _)) _ _)

theorem takeSenseTimer_loopStands (s : State) (currents : BitVec 256) :
    LoopStands s (s.takeSenseTimer currents) := by
  have h (u : State) : LoopStands u { u with lamps := { u.lamps with
      senseDue := u.lamps.senseDue + Config.senseInterval } } := .same rfl
  exact (advanceTo_loopStands s _).trans (.ite ((h _).trans (sense_loopStands _ _ _)) (h _))

theorem completeSweep_loopStands (s : State) (w : Sweep) : LoopStands s (s.completeSweep w) :=
  .ite (.same rfl) (.same rfl)

theorem endDwell_loopStands (s : State) (w : Sweep) (currents : BitVec 256) :
    LoopStands s (s.endDwell w currents) := by
  have h : LoopStands s (s.judgeStep w (bankSamples w.bank currents)) :=
    (mapChannels_loopStands s _).trans (.foldl (fun u _ => record_loopStands u _) _ _)
  exact .ite (h.trans (.same rfl)) (h.trans (completeSweep_loopStands _ _)).settled

theorem takeDwellEnd_loopStands (s : State) (currents : BitVec 256) :
    LoopStands s (s.takeDwellEnd currents) := by
  unfold State.takeDwellEnd
  repeat' split
  · exact (advanceTo_loopStands s _).trans (endDwell_loopStands _ _ _)
  · exact .refl s
  · exact .refl s

theorem takeHoldExpiry_loopStands (s : State) : LoopStands s s.takeHoldExpiry := by
  unfold State.takeHoldExpiry
  split
  · exact .same rfl
  · exact .refl s

theorem takeHold_loopStands (b : List Byte) (s : State) : LoopStands s (takeHold b s).state := by
  unfold takeHold State.holdOff State.holdOn
  repeat' split
  all_goals exact .same rfl

/-! ### Panel lines -/

theorem modifyLine_loopStands (s : State) (i : Fin 8) (f : Line → Line) :
    LoopStands s (s.modifyLine i f) := .same rfl

theorem followLampTest_loopStands (s : State) : LoopStands s s.followLampTest := .same rfl

theorem setDebounce_loopStands (s : State) (ms : Nat) : LoopStands s (s.setDebounce ms) := .same rfl

theorem acknowledgeAll_loopStands (s : State) (scope : PointEntry → Bool) :
    LoopStands s (s.acknowledgeAll scope) :=
  (LoopStands.of_alarmSide (acknowledgeKeys_alarmSide _ s)).settled

theorem press_loopStands (s : State) (i : Fin 8) (l : Line) : LoopStands s (s.press i l) := by
  have h := record_loopStands s (.key i.val l.function l.group)
  unfold State.press State.performKey
  repeat' split
  · exact .refl s
  · exact h.trans (acknowledgeAll_loopStands _ _)
  · exact h.trans (acknowledgeAll_loopStands _ _)
  all_goals exact h.trans (.same rfl)

theorem debounceExpires_loopStands (s : State) (i : Fin 8) : LoopStands s (s.debounceExpires i) := by
  have h := modifyLine_loopStands s i
  unfold State.debounceExpires
  dsimp only
  repeat' split
  · exact (h _).trans (followLampTest_loopStands _)
  · exact h _
  · exact ((h _).trans (press_loopStands _ _ _)).trans (followLampTest_loopStands _)
  · exact (h _).trans (followLampTest_loopStands _)

theorem takeDebounce_loopStands (s : State) (i : Fin 8) : LoopStands s (s.takeDebounce i) := by
  unfold State.takeDebounce
  split
  · exact (advanceTo_loopStands s _).trans (debounceExpires_loopStands _ i)
  · exact .refl s

theorem setLine_loopStands (s : State) (i : Fin 8) (f : LineSetting) (debounce : Nat) :
    LoopStands s (s.setLine i f debounce) := by
  have h := (modifyLine_loopStands s i (·.configure f s.now)).trans (followLampTest_loopStands _)
  exact (h.trans (setDebounce_loopStands _ debounce)).trans
    (.foldl (fun u j => .ite (debounceExpires_loopStands u j) (.refl u)) _ _)

/-! ### Telemetry and outstations (R26, R49 to R54) -/

theorem qualityReturn_loopStands (s before : State) (scope : PointEntry → Bool) :
    LoopStands s (s.qualityReturn before scope) :=
  .of_alarmSide (qualityReturn_alarmSide s before scope)

theorem takeValid_loopStands (s : State) (k : Key) (raw : Nat) : LoopStands s (s.takeValid k raw) := by
  unfold State.takeValid
  dsimp only
  repeat' split
  · exact .trans (.same rfl) (.of_alarmSide (evaluatePoint_alarmSide _ k))
  · exact .same rfl
  · exact .same rfl

theorem refreshOutstation_loopStands (s : State) (o : OutstationEntry) (named : Key) :
    LoopStands s (s.refreshOutstation o named) := by
  have h := modifyOutstation_loopStands s o.number (f := OutstationEntry.refresh)
    fun _ _ => silenceLawful_heard rfl rfl _
  exact .ite (h.trans (qualityReturn_loopStands _ s _)) h

theorem takeItem_loopStands (s : State) (i : Item) : LoopStands s (s.takeItem i) := by
  unfold State.takeItem
  split
  · exact .same rfl
  split
  · exact .same rfl
  next o _ =>
    have h := refreshOutstation_loopStands s o ⟨i.outstation, i.index⟩
    dsimp only
    repeat' split
    · exact h.trans (.same rfl)
    · exact h.trans (.same rfl)
    · exact h.trans (takeValid_loopStands _ _ _)

theorem takePoints_loopStands (s : State) (body : List Byte) : LoopStands s (s.takePoints body) :=
  (LoopStands.foldl takeItem_loopStands _ s).settled

theorem reportUp_loopStands (s : State) (n : Nat) : LoopStands s (s.reportUp n) := by
  have h := modifyOutstation_loopStands s n (f := OutstationEntry.reportedUp)
    fun _ _ => silenceLawful_heard rfl rfl _
  exact (h.trans (qualityReturn_loopStands _ s _)).settled

theorem reportDown_loopStands (s : State) (n : Nat) : LoopStands s (s.reportDown n) :=
  (modifyOutstation_loopStands s n (f := OutstationEntry.reportedDown) fun _ ho => ho).settled

theorem takeOutstation_loopStands (s : State) (body : List Byte) :
    LoopStands s (s.takeOutstation body) := by
  unfold State.takeOutstation
  dsimp only
  repeat' split
  · exact .refl s
  · exact reportUp_loopStands s _
  · exact reportDown_loopStands s _
  · exact .refl s

theorem countSilence_loopStands (s : State) : LoopStands s s.countSilence := by
  rw [countSilence_eq]
  exact (mapOutstations_loopStands s fun _ ho => ho.hush).trans (.same rfl)

/-- SET STALE LIMIT leaves every silence count 0 under a limit of one byte (R54). -/
theorem setStaleLimit_loopStands (s : State) {limit : Nat} (hlimit : limit ≤ 255) :
    LoopStands s (s.setStaleLimit limit) := by
  have h : LoopStands s { s with
      staleLimit := limit, outstations := s.outstations.map OutstationEntry.refresh } := by
    refine ⟨id, id, fun _ => ⟨hlimit, fun o ho => ?_⟩, id⟩
    obtain ⟨x, -, rfl⟩ := List.mem_map.1 ho
    exact silenceLawful_heard rfl rfl limit
  exact (h.trans (qualityReturn_loopStands _ s _)).settled

/-! ### Markers and supervision (R115 to R125) -/

theorem judgeMarker_loopStands (s arrival : State) (sync : Bool) :
    LoopStands s (s.judgeMarker arrival sync) := by
  have started := withSupervisor_loopStands s fun h => h.start s.now
  have early := withSupervisor_loopStands s fun h => h.early
  unfold State.judgeMarker
  split
  · exact started
  · exact started.trans (qualityReturn_loopStands _ arrival _)
  next hs =>
    have windowed := withSupervisor_loopStands s fun h => h.inWindow (by rw [hs]; decide) s.now
    exact .ite (.ite (early.trans (occur_loopStands _ _)) early)
      (.ite (windowed.trans (realign_loopStands _)) windowed)

theorem takeCycle_loopStands (s : State) (body : List Byte) : LoopStands s (s.takeCycle body) := by
  unfold State.takeCycle State.acceptMarker
  refine .ite ?_ (.refl s)
  have marked := withSupervisor_loopStands s fun h =>
    h.record (Nat.le_of_lt_succ (field16_lt body 0)) s.now
  have advanced := marked.trans (.of_alarmSide (advanceTravels_alarmSide _ s))
  exact ((advanced.trans (countSilence_loopStands _)).trans (judgeMarker_loopStands _ _ _)).settled

theorem takeTelemetry_loopStands (s : State) (f : Frame) : LoopStands s (s.takeTelemetry f) :=
  .ite (takeCycle_loopStands s _) (.ite (takePoints_loopStands s _) (takeOutstation_loopStands s _))

theorem lateBoundExpires_loopStands {s : State} (hs : s.supervisor.state ≠ .noSync) (reference : Nat) :
    LoopStands s (s.lateBoundExpires reference) := by
  have referred := fun h : SupervisorLawful s.supervisor =>
    h.withReference hs (reference + s.supervisor.period)
  unfold State.lateBoundExpires
  dsimp only
  split
  · have missed := withSupervisor_loopStands s fun h => (referred h).miss hs
    exact .ite (missed.trans (occur_loopStands _ _)).settled missed
  · exact withSupervisor_loopStands s referred

theorem takeLateBound_loopStands (s : State) : LoopStands s s.takeLateBound := by
  unfold State.takeLateBound
  split
  · exact .refl s
  · exact .refl s
  next hs => exact (advanceTo_loopStands s _).trans (lateBoundExpires_loopStands (s := s.advanceTo _) hs _)

theorem resync_loopStands (s : State) : LoopStands s s.resync := by
  have h := (withSupervisor_loopStands s fun h => h.unsync).trans (realign_loopStands _)
  exact (LoopStands.ite (h.trans (qualityReturn_loopStands _ s _)) h).settled

theorem takeSetTiming_loopStands (b : List Byte) (s : State) :
    LoopStands s (takeSetTiming b s).state := by
  unfold takeSetTiming
  split
  next ht => exact ⟨id, fun h => h.setTiming ht, id, id⟩
  next => exact .refl s

/-! ### Cadence generators (R128 to R131) -/

theorem takeSetCadence_loopStands (b : List Byte) (s : State) :
    LoopStands s (takeSetCadence b s).state := by
  unfold takeSetCadence
  split
  next c run _ _ =>
    exact modifyGenerator_loopStands s c fun h => h.set (cadenceTimesField_lawful b) run s.now
  next => exact .refl s

theorem reportFaults_generators (s : State) (faults : List (Nat × FaultKind)) :
    (s.reportFaults faults).generators = s.generators := by
  unfold State.reportFaults
  exact foldl_same State.generators _ (by intros; rfl) faults s

theorem sense_generators (s : State) (expects : Nat → Channel → Option Bool) (currents : BitVec 256) :
    (s.sense expects currents).generators = s.generators :=
  reportFaults_generators (s.mapChannels _) _

theorem endPhase_loopStands {s : State} {c : Cadence} (hphase : (s.generators.get c).phase ≠ none)
    (ended : Phase) (currents : BitVec 256) : LoopStands s (s.endPhase c ended currents) := by
  have h {t : State} (ht : t.generators = s.generators) :
      LoopStands t { t with generators := t.generators.modify c (·.endPhase ended s.now) } :=
    modifyGenerator_loopStands t c fun hg => hg.endPhase (by rwa [ht]) ended s.now
  unfold State.endPhase
  dsimp only
  split
  · exact (sense_loopStands s _ currents).trans (h (sense_generators s _ currents))
  · exact h rfl

theorem takePhaseEnd_loopStands (s : State) (c : Cadence) (currents : BitVec 256) :
    LoopStands s (s.takePhaseEnd c currents) := by
  unfold State.takePhaseEnd
  split
  next ended t hphase =>
    refine (advanceTo_loopStands s (1000 * t)).trans (endPhase_loopStands ?_ ended currents)
    rw [State.advanceTo_generators, hphase]
    exact Option.some_ne_none _
  next => exact .refl s

/-! ### The tables -/

theorem loadEntry_loopStands (s : State) (e : PointEntry) : LoopStands s (s.loadEntry e) := by
  unfold State.loadEntry
  split
  · exact (LoopStands.of_alarmSide (retire_alarmSide s _)).trans (.same rfl)
  · rw [insertEntry_frame]
    exact (withOutstations_loopStands s fun h => gainPoint_silence h _).trans (.same rfl)

theorem dropEntry_loopStands (s : State) (e : PointEntry) : LoopStands s (s.dropEntry e) := by
  rw [dropEntry_frame]
  exact (withOutstations_loopStands s fun h => losePoint_silence h _).trans (.same rfl)

theorem clearTable_loopStands (s : State) : LoopStands s s.clearTable :=
  (withOutstations_loopStands s (l := []) fun _ _ ho => absurd ho List.not_mem_nil).trans (.same rfl)

theorem restartAll_loopStands (s : State) : LoopStands s s.restartAll := by
  have blocks := ((mapOutstations_loopStands s (f := OutstationEntry.restart)
    fun _ _ => silenceLawful_heard rfl rfl _).trans
      (withSupervisor_loopStands _ fun h => h.unsync)).trans (realign_loopStands _)
  rw [restartAll_eq]
  exact blocks.trans (.same rfl)

/-! ### Conditions -/

theorem raiseConditions_loopStands (s : State) (set : Byte) : LoopStands s (s.raiseConditions set) :=
  .foldl (fun u _ => .ite (occur_loopStands u _) (.refl u)) _ s

theorem clearConditions_loopStands (s : State) (set : Byte) : LoopStands s (s.clearConditions set) := by
  have h : LoopStands s { s with reports := s.reports.clear set } := .same rfl
  exact h.trans (.foldl (fun u _ => .ite (occur_loopStands u _) (.refl u)) _ _)

/-! ### Commands (R172 to R176) -/

/-- SET STATION gives an ASSIGNED controller another number (R161). -/
theorem takeSetStation_loopStands (b : List Byte) (s : State) :
    LoopStands s (takeSetStation b s).state := by
  unfold takeSetStation
  dsimp only
  split
  · exact ⟨fun _ => rfl, id, id, id⟩
  · exact .refl s

theorem takePointLoad_loopStands (b : List Byte) (s : State) :
    LoopStands s (takePointLoad b s).state := by
  unfold takePointLoad
  repeat' split
  · exact .refl s
  · exact .refl s
  · exact loadEntry_loopStands s _

theorem takePointDrop_loopStands (b : List Byte) (s : State) :
    LoopStands s (takePointDrop b s).state := by
  unfold takePointDrop
  split
  · exact .refl s
  · exact dropEntry_loopStands s _

theorem takePointRead_loopStands (b : List Byte) (s : State) :
    LoopStands s (takePointRead b s).state := by
  unfold takePointRead
  split <;> exact .refl s

theorem takeGroupSet_loopStands (b : List Byte) (s : State) :
    LoopStands s (takeGroupSet b s).state := by
  unfold takeGroupSet
  dsimp only
  repeat' split
  all_goals exact .same rfl

theorem takeOutstationRead_loopStands (b : List Byte) (s : State) :
    LoopStands s (takeOutstationRead b s).state := by
  unfold takeOutstationRead
  split <;> exact .refl s

theorem takeAckPoint_loopStands (b : List Byte) (s : State) :
    LoopStands s (takeAckPoint b s).state := by
  unfold takeAckPoint
  repeat' split
  all_goals first
    | exact .refl s | exact (LoopStands.of_alarmSide (acknowledge_alarmSide s _)).settled

theorem takeAckGroup_loopStands (b : List Byte) (s : State) :
    LoopStands s (takeAckGroup b s).state := by
  unfold takeAckGroup
  dsimp only
  split
  · exact acknowledgeAll_loopStands s _
  · exact .refl s

theorem takeHornSet_loopStands (b : List Byte) (s : State) :
    LoopStands s (takeHornSet b s).state := by
  unfold takeHornSet
  split <;> exact .same rfl

theorem takeLampOverride_loopStands (b : List Byte) (s : State) :
    LoopStands s (takeLampOverride b s).state := by
  unfold takeLampOverride
  dsimp only
  repeat' split
  all_goals exact .same rfl

theorem takeLampRead_loopStands (b : List Byte) (s : State) :
    LoopStands s (takeLampRead b s).state := by
  unfold takeLampRead
  split <;> exact .refl s

theorem takeProve_loopStands (tag : Byte) (b : List Byte) (s : State) :
    LoopStands s (takeProve tag b s).state := by
  unfold takeProve
  dsimp only
  repeat' split
  all_goals exact .same rfl

theorem takeClearLampFaults_loopStands (b : List Byte) (s : State) :
    LoopStands s (takeClearLampFaults b s).state := by
  unfold takeClearLampFaults
  dsimp only
  split <;> exact .same rfl

theorem takeLineSet_loopStands (b : List Byte) (s : State) :
    LoopStands s (takeLineSet b s).state := by
  unfold takeLineSet
  split
  · simpa only [Answer.ok] using setLine_loopStands s _ _ _
  · exact .refl s

theorem command_loopStands {code : Byte} {rule : CommandRule} (hc : commandRule code = some rule)
    (tag : Byte) (params : List Byte) (s : State) : LoopStands s (rule.run tag params s).state := by
  unfold commandRule at hc
  split at hc <;> cases hc
  · exact .refl s
  · exact takeSetStation_loopStands params s
  · exact restartAll_loopStands s
  · exact takeSetTiming_loopStands params s
  · exact resync_loopStands s
  · exact takeSetCadence_loopStands params s
  · exact takePointLoad_loopStands params s
  · exact takePointDrop_loopStands params s
  · exact takePointRead_loopStands params s
  · exact clearTable_loopStands s
  · exact .refl s
  · exact takeGroupSet_loopStands params s
  · exact takeOutstationRead_loopStands params s
  · exact setStaleLimit_loopStands s (Nat.le_of_lt_succ (field8_lt params 0))
  · exact takeAckPoint_loopStands params s
  · exact takeAckGroup_loopStands params s
  · exact acknowledgeAll_loopStands s _
  · exact .same rfl
  · exact takeHornSet_loopStands params s
  · exact takeLampOverride_loopStands params s
  · exact takeLampRead_loopStands params s
  · exact takeHold_loopStands params s
  · exact takeProve_loopStands tag params s
  · exact takeClearLampFaults_loopStands params s
  · exact takeLineSet_loopStands params s
  · exact .same rfl
  · exact .refl s
  · exact clearConditions_loopStands s _
  · exact raiseConditions_loopStands s _
  · exact .same rfl

theorem settle_loopStands (a : Answer) (station tag code : Byte) :
    LoopStands a.state (a.settle station tag code) := by
  unfold Answer.settle
  split <;> exact .same rfl

theorem takeAddressed_loopStands (s : State) (station tag code : Byte) (params : List Byte) :
    LoopStands s (s.takeAddressed station tag code params) := by
  have h : LoopStands s (s.execute tag code params).state := by
    unfold State.execute
    repeat' split
    · exact .refl s
    next hc _ => exact command_loopStands hc tag params s
    · exact .refl s
  exact .ite (h.trans (settle_loopStands _ _ _ _)) (.same rfl)

theorem takeBroadcast_loopStands (s : State) (tag code : Byte) (params : List Byte) :
    LoopStands s (s.takeBroadcast tag code params) := by
  unfold State.takeBroadcast
  repeat' split
  · exact .refl s
  next hc _ => exact command_loopStands hc tag params s
  · exact .refl s

/-! ### The Loop Port -/

theorem forward_loopStands (s : State) (f : Frame) : LoopStands s (s.forward f) :=
  .ite (.same rfl) (.ite (.same rfl) (.refl s))

theorem frameError_loopStands (s : State) : LoopStands s s.frameError := by
  unfold State.frameError State.countFrameError
  dsimp only
  repeat' split
  all_goals exact .same rfl

theorem granted_loopStands (s : State) : LoopStands s s.granted := by
  rw [granted_frame]
  exact .same rfl

theorem arrive_loopStands (s : State) (f : Frame) : LoopStands s (s.arrive f) := by
  have hr : LoopStands s s.received := .same rfl
  have hf := hr.trans (forward_loopStands s.received f)
  unfold State.arrive State.forwardingDecision State.takeAddressedBody State.takeBroadcastBody
  repeat' split
  · exact hr.trans (.same rfl)
  · exact hf.trans (takeTelemetry_loopStands _ f)
  · exact LoopStands.trans (t := s.received.countForeign) (.same rfl) (forward_loopStands _ f)
  · exact hr.trans (takeAddressed_loopStands _ _ _ _ _)
  · exact hr
  · exact hf.trans (takeBroadcast_loopStands _ _ _ _)
  all_goals exact hf

/-! ### Own events -/

theorem takeTruncated_loopStands (s : State) : LoopStands s s.takeTruncated := by
  unfold State.takeTruncated
  split
  · exact (advanceTo_loopStands s _).trans (frameError_loopStands _)
  · exact .refl s

theorem takeStarted_loopStands (s : State) : LoopStands s s.takeStarted := by
  unfold State.takeStarted
  split <;> exact .same rfl

theorem takeTransmissionEnd_loopStands (s : State) : LoopStands s s.takeTransmissionEnd := by
  unfold State.takeTransmissionEnd
  split <;> exact .same rfl

theorem ownEvent_loopStands (s : State) (e : OwnEvent) (currents : BitVec 256) :
    LoopStands s (e.take currents s) := by
  refine (granted_loopStands s).trans ?_
  cases e with
  | grant => exact .refl _
  | started => exact takeStarted_loopStands _
  | gap => exact takeTruncated_loopStands _
  | sent => exact takeTransmissionEnd_loopStands _
  | lateBound => exact takeLateBound_loopStands _
  | dwell => exact takeDwellEnd_loopStands _ _
  | hold => exact takeHoldExpiry_loopStands _
  | phase c => exact takePhaseEnd_loopStands _ _ _
  | debounce i => exact takeDebounce_loopStands _ i
  | sense => exact takeSenseTimer_loopStands _ _

end Sys2Proof.Machine
end

section
/-! The laws of loop time and the quiet of a PASS-ONLY controller as invariants of every step (R52, R53, R112,
R115, R127, R130, R150, R160). -/

namespace Sys2Proof.Machine

/-! ### From the rows to the step -/

/-- An invariant that a reset gives and that frames, frame errors, own events, pins, the receiver and time
keep. -/
structure KeptByRows (Inv : State → Prop) : Prop where
  hardwareReset : ∀ (s : State) (source : ResetSource) (straps : BitVec 6),
    Inv (s.hardwareReset source straps)
  arrive : ∀ (s : State) (f : Frame), Inv s → Inv (s.arrive f)
  frameError : ∀ s : State, Inv s → Inv s.frameError
  ownEvent : ∀ (s : State) (e : OwnEvent) (currents : BitVec 256), Inv s → Inv (e.take currents s)
  pinChange : ∀ (s : State) (i : Fin 8) (level : PinLevel) (now : Nat), Inv s →
    Inv (s.modifyLine i (·.pinBecomes level now))
  withReceiver : ∀ (s : State) (r : Receiver), Inv s → Inv (s.withReceiver r)
  advanceTo : ∀ (s : State) (us : Nat), Inv s → Inv (s.advanceTo us)
  drawCurrents : ∀ s : State, Inv s → Inv s.drawCurrents
  withPending : ∀ (s : State) (queue : List Instr), Inv s → Inv (s.withPending queue)

namespace KeptByRows

variable {Inv : State → Prop} (kept : KeptByRows Inv)
include kept

theorem granted {s : State} (hs : Inv s) : Inv s.granted := kept.ownEvent s .grant 0 hs

theorem startBit {s : State} (hs : Inv s) : Inv s.startBit := by
  have begun (r : Receiver) := kept.withReceiver s r hs
  unfold State.startBit State.takeTruncated
  dsimp only
  repeat' split
  · exact kept.frameError _ (kept.advanceTo s _ hs)
  · exact hs
  · exact begun _
  · exact begun _

theorem receiveByte {s : State} (b : Byte) (hs : Inv s) : Inv (s.receiveByte b) := by
  have receiver (r : Receiver) := kept.withReceiver s r hs
  have error := kept.frameError s hs
  unfold State.receiveByte State.judgeFrame
  dsimp only
  repeat' split
  all_goals first | exact hs | exact receiver _ | exact error | exact kept.arrive s _ hs

theorem takeCharacter {s : State} (c : Character) (hs : Inv s) : Inv (s.takeCharacter c) := by
  have ended := passUntil_keeps Inv (s.clock + Config.characterTime)
    (fun t e ht _ => kept.ownEvent _ e _ (kept.drawCurrents t ht)) (fun t us ht => kept.advanceTo t us ht)
    Config.eventsPerCharacter _ (kept.granted (kept.startBit hs))
  exact kept.receiveByte _ (kept.granted ended)

theorem exec {i : Instr} {s t : State} (hs : Inv s) (h : Machine.exec i s = .next t) : Inv t := by
  have hg := kept.granted hs
  cases hf : frameOf i with
  | some f =>
    rw [exec_frameOf hf] at h
    cases h
    exact kept.arrive _ f hg
  | none =>
    have own (e : OwnEvent) (currents : BitVec 256)
        (h : Machine.exec (e.row currents) s = .next t) : Inv t := by
      rw [exec_row] at h
      cases h
      exact kept.ownEvent s e currents hs
    cases i with
    | hardwareReset source straps =>
      simp only [Machine.exec, execHardwareReset] at h
      split at h <;> cases h
      · exact kept.hardwareReset s source straps
      · exact hg
    | badLength => cases h; exact kept.frameError _ hg
    | badCrc => cases h; exact kept.frameError _ hg
    | pinChange line level => cases h; exact kept.pinChange _ line level _ hg
    | byteReceived character => cases h; exact kept.takeCharacter character hg
    | startedRecordQueued => exact own .started 0 h
    | truncated => exact own .gap 0 h
    | lateBoundExpiry => exact own .lateBound 0 h
    | holdExpiry => exact own .hold 0 h
    | dwellEnd currents => exact own .dwell currents h
    | senseTimerExpiry currents => exact own .sense currents h
    | phaseEnd generator currents => exact own (.phase generator) currents h
    | debounceExpiry line => exact own (.debounce line) 0 h
    | grant => exact own .grant 0 h
    | transmissionEnd => exact own .sent 0 h
    | _ => cases hf

/-- What every row keeps, every step keeps. -/
theorem step {s t : State} (hs : Inv s) (h : Machine.step s = .next t) : Inv t := by
  unfold Machine.step idleStep at h
  repeat' split at h
  · exact kept.exec (kept.withPending s _ hs) h
  · exact kept.exec (kept.drawCurrents s hs) h
  · cases h
    exact kept.advanceTo s _ hs

end KeptByRows

/-! ### Loop time (R52, R53, R115, R127) -/

theorem supervisorLawful_reset : SupervisorLawful ⟨.noSync, none, 1000, 100, 3, 5, 0, 0, 0, 0⟩ where
  reference := ⟨fun _ => rfl, fun _ => rfl⟩
  period := by decide
  window := by decide
  misses := by decide
  skews := by decide
  cycle := by decide

theorem timeLawful_hardwareReset (s : State) (source : ResetSource) (straps : BitVec 6) :
    TimeLawful (s.hardwareReset source straps) := by
  have hlimit : 5 ≤ 255 := by decide
  refine (timeLawful_iff _).2 ⟨supervisorLawful_reset,
    ⟨hlimit, fun _ ho => absurd ho List.not_mem_nil⟩, fun c => ?_⟩
  cases c <;> exact generatorLawful_reset ⟨by decide, by decide, by decide, by decide⟩

theorem timeLawful_kept : KeptByRows TimeLawful where
  hardwareReset := timeLawful_hardwareReset
  arrive s f h := h.stand (arrive_loopStands s f)
  frameError s h := h.stand (frameError_loopStands s)
  ownEvent s e currents h := h.stand (ownEvent_loopStands s e currents)
  pinChange s i _ _ h := h.stand (modifyLine_loopStands s i _)
  withReceiver _ _ h := h.stand (.same rfl)
  advanceTo s us h := h.stand (advanceTo_loopStands s us)
  drawCurrents _ h := h.stand (.same rfl)
  withPending _ _ h := h.stand (.same rfl)

/-! ### A PASS-ONLY controller (R112, R150, R160) -/

/-- Nothing moves but the receiver, the through FIFO and the transmitter, the generators, the time base, the
pins and the model's own counter and queue. -/
structure PassesOn (s t : State) : Prop where
  same : t = { s with
    clock := t.clock, generators := t.generators, pending := t.pending
    port := { s.port with
      receiver := t.port.receiver, fifo := t.port.fifo, sending := t.port.sending }
    lamps := { s.lamps with senseDue := t.lamps.senseDue, sampleNo := t.lamps.sampleNo }
    panel := { s.panel with lines := t.panel.lines } }
  lines : ∀ i, (t.line i).function = (s.line i).function ∧
    (t.line i).direction = (s.line i).direction ∧ (t.line i).latch = (s.line i).latch

namespace PassesOn

theorem refl (s : State) : PassesOn s s := ⟨rfl, fun _ => ⟨rfl, rfl, rfl⟩⟩

theorem trans {s t u : State} (h : PassesOn s t) (h' : PassesOn t u) : PassesOn s u where
  same := by
    refine h'.same.trans ?_
    rw [h.same]
  lines i := by
    obtain ⟨hf, hd, hl⟩ := h.lines i
    obtain ⟨hf', hd', hl'⟩ := h'.lines i
    exact ⟨hf'.trans hf, hd'.trans hd, hl'.trans hl⟩

theorem station {s t : State} (h : PassesOn s t) : t.port.station = s.port.station := by
  rw [h.same]

theorem quiet {s t : State} (h : PassesOn s t) (hq : PassOnlyIsQuiet s) : PassOnlyIsQuiet t := by
  intro hn
  rw [h.station] at hn
  obtain ⟨hstart, hpoints, houtstations, hgroups, hunmapped, hlimit, hcommands, halarms, hreports,
    hsupervisor, hchannels, hhold, hsweep, htest, hdebounce, hlines, hcounts⟩ := hq hn
  have hlines' : ∀ i, (t.line i).function = .none ∧ (t.line i).direction = .input ∧
      (t.line i).latch = false := fun i => by
    obtain ⟨hf, hd, hl⟩ := h.lines i
    rw [hf, hd, hl]
    exact hlines i
  have hsame := h.same
  refine ⟨?_, ?_, ?_, ?_, ?_, ?_, ?_, ?_, ?_, ?_, ?_, ?_, ?_, ?_, ?_, hlines', ?_⟩ <;> rw [hsame]
  all_goals assumption

end PassesOn

theorem modifyLine_passesOn (s : State) (i : Fin 8) {f : Line → Line}
    (hf : ∀ l, (f l).function = l.function ∧ (f l).direction = l.direction ∧ (f l).latch = l.latch) :
    PassesOn s (s.modifyLine i f) where
  same := rfl
  lines j := by
    rw [modifyLine_line]
    split
    · exact hf _
    · exact ⟨rfl, rfl, rfl⟩

theorem pinBecomes_fields (level : PinLevel) (now : Nat) (l : Line) :
    (l.pinBecomes level now).function = l.function ∧
      (l.pinBecomes level now).direction = l.direction ∧ (l.pinBecomes level now).latch = l.latch := by
  unfold Line.pinBecomes
  split <;> exact ⟨rfl, rfl, rfl⟩

theorem advanceTo_passesOn (s : State) (us : Nat) : PassesOn s (s.advanceTo us) :=
  ⟨rfl, fun _ => ⟨rfl, rfl, rfl⟩⟩

theorem withReceiver_passesOn (s : State) (r : Receiver) : PassesOn s (s.withReceiver r) :=
  ⟨rfl, fun _ => ⟨rfl, rfl, rfl⟩⟩

theorem takeTransmissionEnd_passesOn (s : State) : PassesOn s s.takeTransmissionEnd := by
  unfold State.takeTransmissionEnd
  split
  · exact ⟨rfl, fun _ => ⟨rfl, rfl, rfl⟩⟩
  · exact .refl s

section

variable {s : State} (hn : s.port.station = none)
include hn

theorem not_assigned_of_passOnly : s.assigned = false := by
  rw [State.assigned, hn]
  rfl

/-- A PASS-ONLY controller grants through frames alone (R160, R166). -/
theorem granted_passesOn : PassesOn s s.granted := by
  have hlocal : s.localWaits = false := by
    rw [State.localWaits, not_assigned_of_passOnly hn, Bool.false_and]
  unfold State.granted
  rw [hlocal]
  split
  · exact .refl s
  split
  next f rest _ =>
    rw [if_pos (.inr Bool.false_ne_true), State.grantThrough, hlocal]
    exact ⟨rfl, fun _ => ⟨rfl, rfl, rfl⟩⟩
  next => exact .refl s

theorem frameError_passesOn : PassesOn s s.frameError := by
  have hhunt : s.hunt.assigned = false := not_assigned_of_passOnly (s := s.hunt) hn
  rw [State.frameError, State.countFrameError, hhunt]
  exact withReceiver_passesOn s .hunting

theorem arrive_passesOn (f : Frame) : PassesOn s (s.arrive f) := by
  have hreceived : s.received.assigned = false := not_assigned_of_passOnly (s := s.received) hn
  have hr : s.received = s.hunt := by
    rw [State.received, hn]
    rfl
  rw [State.arrive, hn]
  change PassesOn s (s.received.forward f)
  rw [State.forward, hreceived, hr]
  split
  · exact ⟨rfl, fun _ => ⟨rfl, rfl, rfl⟩⟩
  · exact withReceiver_passesOn s .hunting

theorem takeTruncated_passesOn : PassesOn s s.takeTruncated := by
  unfold State.takeTruncated
  split
  · exact (advanceTo_passesOn s _).trans (frameError_passesOn (s := s.advanceTo _) hn)
  · exact .refl s

theorem takeSenseTimer_passesOn (currents : BitVec 256) : PassesOn s (s.takeSenseTimer currents) := by
  rw [State.takeSenseTimer, State.senseTimer, not_assigned_of_passOnly (s := s.advanceTo _) hn]
  exact ⟨rfl, fun _ => ⟨rfl, rfl, rfl⟩⟩

theorem takePhaseEnd_passesOn (c : Cadence) (currents : BitVec 256) :
    PassesOn s (s.takePhaseEnd c currents) := by
  unfold State.takePhaseEnd
  split
  · rw [State.endPhase, not_assigned_of_passOnly (s := s.advanceTo _) hn]
    exact ⟨rfl, fun _ => ⟨rfl, rfl, rfl⟩⟩
  · exact .refl s

theorem press_of_passOnly (i : Fin 8) (l : Line) : s.press i l = s := by
  rw [State.press, not_assigned_of_passOnly hn, if_pos (.inr Bool.false_ne_true)]

end

/-- What the timers, the lamps and the lines of a quiet PASS-ONLY controller are read from. -/
structure PassOnlyIdle (s : State) : Prop where
  station : s.port.station = none
  startDue : s.startDue = none
  supervision : s.supervisor.state = .noSync
  channels : s.lamps.channels = Vector.replicate 256 Channel.reset
  holdEnds : s.lamps.holdEnds = none
  sweep : s.lamps.sweep = none
  lampTest : s.panel.lampTest = false
  functions : ∀ i, (s.line i).function = .none

theorem PassOnlyIsQuiet.idle {s : State} (hq : PassOnlyIsQuiet s) (hn : s.port.station = none) :
    PassOnlyIdle s := by
  obtain ⟨hstart, -, -, -, -, -, -, -, -, hsupervisor, hchannels, hhold, hsweep, htest, -, hlines, -⟩ :=
    hq hn
  exact ⟨hn, hstart, by rw [hsupervisor], hchannels, hhold, hsweep, htest, fun i => (hlines i).1⟩

namespace PassOnlyIdle

variable {s : State} (h : PassOnlyIdle s)
include h

theorem takeStarted : s.takeStarted = s := by rw [State.takeStarted, h.startDue]

theorem takeLateBound : s.takeLateBound = s := by rw [State.takeLateBound, h.supervision]

theorem takeDwellEnd (currents : BitVec 256) : s.takeDwellEnd currents = s := by
  rw [State.takeDwellEnd, h.sweep]

theorem takeHoldExpiry : s.takeHoldExpiry = s := by rw [State.takeHoldExpiry, h.holdEnds]

/-- Every channel is DARK, as R112 drives it. -/
theorem lampsSettled : LampsSettled s := by
  intro c hc
  rw [State.drive, if_pos h.station, h.channels, Vector.getElem_replicate]
  rfl

/-- No line has the function LAMP_TEST, so lamp test has nothing to follow (R150). -/
theorem followLampTest : s.followLampTest = s := by
  have hheld : s.lampTestHeld = false := by
    refine List.any_eq_false.2 fun l hl => ?_
    obtain ⟨i, hi, rfl⟩ := Vector.mem_iff_getElem.1 (Vector.mem_toList_iff.1 hl)
    rw [Line.holdsLampTest, show s.panel.lines[i].function = .none from h.functions ⟨i, hi⟩]
    simp
  have hsame : ({ s with panel := { s.panel with lampTest := s.lampTestHeld } } : State).withSweep
      (s.lamps.sweep.map (·.follow s.lampTestHeld s.dwellFromNow)) = s := by
    rw [hheld, ← h.lampTest, h.sweep, Option.map_none, ← h.sweep]
    rfl
  rw [State.followLampTest, hsame, settleLamps_of_settled h.lampsSettled]

end PassOnlyIdle

section

variable {s : State} (hn : s.port.station = none) (hq : PassOnlyIsQuiet s)
include hn hq

theorem debounceExpires_passesOn (i : Fin 8) : PassesOn s (s.debounceExpires i) := by
  have hline {f : Line → Line} (hf) := modifyLine_passesOn s i (f := f) hf
  have hdebounced := hline (f := Line.debounced) fun _ => ⟨rfl, rfl, rfl⟩
  have hn' : (s.modifyLine i Line.debounced).port.station = none := hn
  unfold State.debounceExpires
  dsimp only
  rw [press_of_passOnly hn', ((hdebounced.quiet hq).idle hn').followLampTest]
  repeat' split
  · exact hdebounced
  · exact hline fun _ => ⟨rfl, rfl, rfl⟩
  · exact hdebounced
  · exact hdebounced

theorem takeDebounce_passesOn (i : Fin 8) : PassesOn s (s.takeDebounce i) := by
  unfold State.takeDebounce
  split
  · have h := advanceTo_passesOn s
    exact (h _).trans (debounceExpires_passesOn (s := s.advanceTo _) hn ((h _).quiet hq) i)
  · exact .refl s

theorem ownEvent_passesOn (e : OwnEvent) (currents : BitVec 256) : PassesOn s (e.take currents s) := by
  have hg := granted_passesOn hn
  have hn' : s.granted.port.station = none := hg.station.trans hn
  have hq' := hg.quiet hq
  have hidle := hq'.idle hn'
  refine hg.trans ?_
  cases e with
  | grant => exact .refl _
  | started => exact hidle.takeStarted ▸ .refl _
  | gap => exact takeTruncated_passesOn hn'
  | sent => exact takeTransmissionEnd_passesOn _
  | lateBound => exact hidle.takeLateBound ▸ .refl _
  | dwell => exact hidle.takeDwellEnd currents ▸ .refl _
  | hold => exact hidle.takeHoldExpiry ▸ .refl _
  | phase c => exact takePhaseEnd_passesOn hn' c currents
  | debounce i => exact takeDebounce_passesOn hn' hq' i
  | sense => exact takeSenseTimer_passesOn hn' currents

end

/-- What an ASSIGNED controller stays ASSIGNED under, and a quiet PASS-ONLY controller passes on under, keeps
the quiet of a PASS-ONLY controller. -/
theorem PassOnlyIsQuiet.keep {s t : State} (hq : PassOnlyIsQuiet s) (hs : LoopStands s t)
    (hp : s.port.station = none → PassesOn s t) : PassOnlyIsQuiet t := by
  cases hn : s.port.station with
  | none => exact (hp hn).quiet hq
  | some n =>
    have ht : t.assigned = true := hs.assigned (by rw [State.assigned, hn]; rfl)
    intro hnone
    rw [not_assigned_of_passOnly hnone] at ht
    exact absurd ht Bool.false_ne_true

theorem passOnlyIsQuiet_hardwareReset (s : State) (source : ResetSource) (straps : BitVec 6) :
    PassOnlyIsQuiet (s.hardwareReset source straps) := by
  intro hn
  have hstraps : straps = 0 ∨ straps = 63 := (stationOfStraps_eq_none straps).1 hn
  have hstart : (s.hardwareReset source straps).startDue = none := by
    rw [hardwareReset_startDue, if_pos hstraps]
  refine ⟨hstart, rfl, rfl, rfl, rfl, rfl, rfl, rfl, rfl, rfl, rfl, rfl, rfl, rfl, rfl, fun i => ?_,
    rfl, rfl, rfl, rfl, rfl, rfl⟩
  rw [hardwareReset_line]
  exact ⟨rfl, rfl, rfl⟩

theorem passOnlyIsQuiet_kept : KeptByRows PassOnlyIsQuiet where
  hardwareReset := passOnlyIsQuiet_hardwareReset
  arrive s f h := h.keep (arrive_loopStands s f) fun hn => arrive_passesOn hn f
  frameError s h := h.keep (frameError_loopStands s) frameError_passesOn
  ownEvent s e currents h :=
    h.keep (ownEvent_loopStands s e currents) fun hn => ownEvent_passesOn hn h e currents
  pinChange s i level now h :=
    (modifyLine_passesOn s i (pinBecomes_fields level now)).quiet h
  withReceiver s r h := (withReceiver_passesOn s r).quiet h
  advanceTo s us h := (advanceTo_passesOn s us).quiet h
  drawCurrents _ h := PassesOn.quiet ⟨rfl, fun _ => ⟨rfl, rfl, rfl⟩⟩ h
  withPending _ _ h := PassesOn.quiet ⟨rfl, fun _ => ⟨rfl, rfl, rfl⟩⟩ h

/-- Settles O59: every row keeps the laws of each block of loop time, and a PASS-ONLY controller passes on. -/
theorem everyStepKeepsLoopTimeLawful : Obligations.EveryStepKeepsLoopTimeLawful :=
  fun _ _ => ⟨timeLawful_kept.step, passOnlyIsQuiet_kept.step⟩

end Sys2Proof.Machine
end

section
/-! Quality (R47), the outstation commands (R54, R61) and outstation reports (R49 to R51). -/

namespace Sys2Proof.Machine

/-! ### The quality of a point (R47) -/

theorem down_of_entry {s : State} {n : Nat} {o : OutstationEntry} (h : s.outstation n = some o) :
    s.down n = true ↔ o.comms = .down := by
  rw [State.down, h]
  exact beq_iff_eq

theorem staleFlag_of_entry {s : State} {n : Nat} {o : OutstationEntry} (h : s.outstation n = some o) :
    s.staleFlag n = o.stale := by
  rw [State.staleFlag, h]

theorem isAnalogue_iff (e : PointEntry) : e.isAnalogue = true ↔ ∃ mode p, e.cls = .analogue mode p := by
  unfold PointEntry.isAnalogue
  split
  next mode p hc => exact ⟨fun _ => ⟨mode, p, hc⟩, fun _ => rfl⟩
  next hc => exact ⟨fun h => absurd h Bool.false_ne_true, fun ⟨mode, p, h⟩ => absurd h (hc mode p)⟩

/-- The cases of R47 by the entry of the point's outstation. -/
theorem quality_of_entry {s : State} {e : PointEntry} {o : OutstationEntry}
    (h : s.outstation e.key.outstation = some o) : s.quality e =
      if e.raw = none then .never
      else if o.comms = .down then .offline
      else if s.supervisor.state = .lost ∨ o.stale = true then .stale
      else if e.itemInvalid = true then .invalid
      else if e.isAnalogue = true ∧ e.sensorFault = true then .sensorFault
      else .good := by
  simp only [State.quality, down_of_entry h, staleFlag_of_entry h, Bool.and_eq_true]

/-- Settles O52: each case of R47 where the cases before it do not apply. -/
theorem qualityIsTheFirstCaseThatApplies : Obligations.QualityIsTheFirstCaseThatApplies := by
  intro s e o ho
  rw [quality_of_entry ho]
  refine ⟨fun hraw => if_pos hraw, fun hraw hdown => ?offline, fun hraw hdown hstale => ?stale,
    fun hraw hdown hlost hfresh => ?trusted⟩
  case offline => rw [if_neg hraw, if_pos hdown]
  case stale => rw [if_neg hraw, if_neg hdown, if_pos hstale]
  case trusted =>
    have hheard : ¬ (s.supervisor.state = .lost ∨ o.stale = true) := by simp [hlost, hfresh]
    rw [if_neg hraw, if_neg hdown, if_neg hheard]
    refine ⟨fun hi => if_pos hi, fun hi hc hf => ?_, fun hi hgood => ?_⟩
    · rw [if_neg (by simp [hi]), if_pos ⟨(isAnalogue_iff e).2 hc, hf⟩]
    · rw [if_neg (by simp [hi]), if_neg]
      rintro ⟨hc, hf⟩
      obtain ⟨mode, p, hc⟩ := (isAnalogue_iff e).1 hc
      rcases hgood with hother | hnone
      · exact hother mode p hc
      · rw [hnone] at hf
        exact absurd hf Bool.false_ne_true

/-! ### OUTSTATION READ (R61) -/

/-- The eight bytes of an outstation's entry and the stale limit (R200, 11.4.4). -/
theorem outstationBytes_fields (o : OutstationEntry) (limit : Nat) :
    (o.bytes limit).length = 8 ∧ field16 (o.bytes limit) 0 = o.number % 65536 ∧
    field16 (o.bytes limit) 2 = o.points % 65536 ∧ field8 (o.bytes limit) 4 = o.comms.code ∧
    field8 (o.bytes limit) 5 = o.silence % 256 ∧ field8 (o.bytes limit) 6 = (if o.stale then 1 else 0) ∧
    field8 (o.bytes limit) 7 = limit % 256 := by
  have hnumber : field16 (o.bytes limit) 0 = o.number % 65536 := by
    rw [OutstationEntry.bytes, List.append_assoc, field16_bytes16]
  have hpoints : field16 (o.bytes limit) 2 = o.points % 65536 :=
    field16_bytes16 o.points [byteOf o.comms.code, byteOf o.silence, byteOf o.stale.toNat, byteOf limit]
  refine ⟨rfl, hnumber, hpoints, ?_, byteOf_toNat _, ?_, byteOf_toNat _⟩
  · refine (byteOf_toNat o.comms.code).trans ?_
    cases o.comms <;> rfl
  · refine (byteOf_toNat o.stale.toNat).trans ?_
    cases o.stale <;> rfl

/-- Settles O30: the entry as bytes, or NOT_FOUND. -/
theorem outstationReadReportsTheEntry : Obligations.OutstationReadReportsTheEntry := by
  intro h b s ha hlen
  cases ho : s.outstation (field16 b 0) with
  | none =>
    obtain ⟨t, hexec, hans⟩ := arriveCommand_refused ha (code := 0x30) (r := .notFound) (data := [])
      rfl hlen (by
        change takeOutstationRead b s.received = _
        simp only [takeOutstationRead, show s.received.outstation (field16 b 0) = none from ho]
        rfl)
    exact ⟨t, hexec, fun _ => hans, fun o hsome => absurd hsome (Option.some_ne_none o).symm⟩
  | some o =>
    obtain ⟨t, hexec, hans⟩ := arriveCommand_refused ha (code := 0x30) (r := .ok)
      (data := o.bytes s.staleLimit) rfl hlen (by
        change takeOutstationRead b s.received = _
        simp only [takeOutstationRead, show s.received.outstation (field16 b 0) = some o from ho]
        rfl)
    refine ⟨t, hexec, fun hnone => absurd hnone (Option.some_ne_none o), fun o' hsome => ?_⟩
    obtain rfl := Option.some.inj hsome
    obtain ⟨hlength, hnumber, hfields⟩ := outstationBytes_fields o s.staleLimit
    rw [outstation_number ho, Nat.mod_eq_of_lt (field16_lt b 0)] at hnumber
    exact ⟨_, hans, hlength, hnumber, hfields⟩

/-! ### Quality return with the lamps settled (R58) -/

/-- Quality return moves the alarm side, and settling the lamps. -/
theorem settled_qualityReturn_frame (u before : State) (scope : PointEntry → Bool) {t : State}
    (ht : t = (u.qualityReturn before scope).settleLamps) : t = { u with
      points := t.points, alarms := t.alarms, groups := t.groups, reports := t.reports
      lamps := t.lamps } := by
  have hside : u.qualityReturn before scope = _ := qualityReturn_alarmSide u before scope
  subst ht
  generalize u.qualityReturn before scope = q at hside ⊢
  rw [hside]
  rfl

/-! ### SET STALE LIMIT (R54) -/

/-- The limit set and every outstation forgiven its silence, before quality return (R54). -/
def State.forgiven (s : State) (limit : Nat) : State :=
  { s with staleLimit := limit, outstations := s.outstations.map OutstationEntry.refresh }

theorem setStaleLimit_eq (s : State) (limit : Nat) : s.setStaleLimit limit =
    ((s.forgiven limit).qualityReturn s fun e => s.staleFlag e.key.outstation).settleLamps := rfl

theorem setStaleLimit_answered_frame (s : State) (limit : Nat) (h : CommandHead) (code : Byte)
    {t : State} (ht : t = (s.setStaleLimit limit).answered h code []) : t = { s.forgiven limit with
      port := t.port, commands := t.commands, points := t.points, alarms := t.alarms
      groups := t.groups, reports := t.reports, lamps := t.lamps } := by
  have hframe := settled_qualityReturn_frame _ s _ (setStaleLimit_eq s limit)
  subst ht
  generalize s.setStaleLimit limit = q at hframe ⊢
  rw [hframe]
  rfl

/-- Settles O31: the limit set, the silences forgiven, then quality return. -/
theorem setStaleLimitForgivesEveryOutstation : Obligations.SetStaleLimitForgivesEveryOutstation := by
  intro h x s ha hk
  have hside := qualityReturn_alarmSide (s.received.forgiven x.toNat) s.received
    fun e => s.staleFlag e.key.outstation
  have hreturned := qualityReturn_returned (before := s.received) (now := s.received.forgiven x.toNat)
    (fun e => s.staleFlag e.key.outstation) hk.distinct
  exact ⟨(s.received.setStaleLimit x.toNat).answered h 0x31 [], _,
    arriveCommand_answered ha (code := 0x31) (params := [x]) rfl rfl rfl, rfl,
    setStaleLimit_answered_frame s.received x.toNat h 0x31 rfl,
    heard_of_received ha hside.port, answered_oneReply hside.commands,
    ⟨hreturned.points, hreturned.board⟩, (onlyRedriven_settleLamps hside.lamps).withCommands _⟩

/-! ### Outstation reports (R49 to R51) -/

theorem exec_outstationFrame {s : State} {n : Byte} (ha : AssignedAs s n) (hn : NoGrantDue s)
    (dest : Byte) (body : List Byte) : exec (.outstationFrame dest 63 body) s =
      .next ((s.passedOn ⟨0x03, dest, 63, body⟩).takeOutstation body) :=
  exec_telemetry (i := .outstationFrame dest 63 body) rfl rfl ha hn

/-- A body of another length, or a report of an unknown outstation or of neither UP nor DOWN, changes
nothing (R49). -/
theorem takeOutstation_ignored {s : State} {body : List Byte}
    (h : body.length ≠ 3 ∨ field16 body 0 % 4096 = 0 ∨ s.outstation (field16 body 0 % 4096) = none ∨
      (field8 body 2 ≠ 1 ∧ field8 body 2 ≠ 2)) : s.takeOutstation body = s := by
  unfold State.takeOutstation
  dsimp only
  split
  · rfl
  next hknown =>
    obtain ⟨hup, hdown⟩ : field8 body 2 ≠ 1 ∧ field8 body 2 ≠ 2 := by tauto
    split
    next hone => exact absurd hone hup
    next htwo => exact absurd htwo hdown
    next => rfl

theorem takeOutstation_report {s : State} {body : List Byte} (hlen : body.length = 3)
    (hk : field16 body 0 % 4096 ≠ 0) (ho : (s.outstation (field16 body 0 % 4096)).isSome) :
    (field8 body 2 = 1 → s.takeOutstation body = s.reportUp (field16 body 0 % 4096)) ∧
    (field8 body 2 = 2 → s.takeOutstation body = s.reportDown (field16 body 0 % 4096)) := by
  have hknown : ¬ (body.length ≠ 3 ∨ field16 body 0 % 4096 = 0 ∨
      s.outstation (field16 body 0 % 4096) = none) := by
    simp [hlen, hk, Option.isSome_iff_ne_none.1 ho]
  constructor <;> intro hcode <;> simp only [State.takeOutstation, if_neg hknown, hcode]

/-- Settles O49: the report taken on the state that forwarding leaves. -/
theorem outstationReportMovesItsPoints : Obligations.OutstationReportMovesItsPoints := by
  rintro n dest body s w k ha hn hk hw rfl
  have hexec : exec (.outstationFrame dest 63 body) s = .next (w.takeOutstation body) := by
    rw [exec_outstationFrame ha hn, hw]
  have houtstations : w.outstations = s.outstations := by rw [hw, passedOn_outstations]
  have hsupervisor : w.supervisor = s.supervisor := by rw [hw, passedOn_supervisor]
  have hdistinct : KeysDistinct w.points := by
    rw [hw, passedOn_points]
    exact hk.distinct
  have hentry : w.outstation (field16 body 0 % 4096) = s.outstation (field16 body 0 % 4096) := by
    rw [State.outstation, State.outstation, houtstations]
  rw [hexec, ← hentry, ← houtstations]
  refine ⟨fun hignored => ?ignored, fun hlen hne ho hup => ?up, fun hlen hne ho hdown => ?down⟩
  case ignored => rw [takeOutstation_ignored hignored]
  case up =>
    rw [(takeOutstation_report hlen hne ho).1 hup]
    have hreturned := qualityReturn_returned (before := w) (now := { w with
      outstations := modifyOutstation (field16 body 0 % 4096) OutstationEntry.reportedUp w.outstations })
      (fun e => e.key.outstation == field16 body 0 % 4096) hdistinct
    have hreturned' : Returned w _ (w.reportUp (field16 body 0 % 4096)) _ :=
      ⟨hreturned.points, hreturned.board⟩
    exact ⟨_, _, rfl, rfl, settled_qualityReturn_frame _ w _ rfl,
      hreturned'.of_quality fun e => (quality_congr houtstations hsupervisor e).symm,
      onlyRedriven_settleLamps (qualityReturn_alarmSide _ w _).lamps⟩
  case down =>
    rw [(takeOutstation_report hlen hne ho).2 hdown]
    exact ⟨_, rfl, rfl, onlyRedriven_settleLamps rfl⟩

end Sys2Proof.Machine
end

section
/-! The commands of the alarm sequence: acknowledgement (R76 to R80), SILENCE (R72) and HORN SET (R71,
R73). -/

namespace Sys2Proof.Machine

/-! ### A scope acknowledged by a command (R77, R79, R80) -/

/-- The acknowledgement of a scope moves the alarm side, and settling the lamps. -/
theorem acknowledgeAll_frame (s : State) (scope : PointEntry → Bool) : s.acknowledgeAll scope = { s with
    points := (s.acknowledgeAll scope).points, alarms := (s.acknowledgeAll scope).alarms
    groups := (s.acknowledgeAll scope).groups, reports := (s.acknowledgeAll scope).reports
    lamps := (s.acknowledgeAll scope).lamps } := by
  have hside : (s.toAcknowledge scope).foldl (fun s k => s.acknowledge k) s = _ :=
    acknowledgeKeys_alarmSide _ s
  unfold State.acknowledgeAll
  generalize (s.toAcknowledge scope).foldl (fun s k => s.acknowledge k) s = u at hside ⊢
  rw [hside]
  rfl

/-- What an addressed command leaves that acknowledges a scope and answers OK. -/
theorem acknowledgeAll_answered {s t : State} {h : CommandHead} (ha : Addressed s h) (hk : KeysRise s)
    {scope : PointEntry → Bool} {code : Byte} {data : List Byte}
    (ht : t = (s.received.acknowledgeAll scope).answered h code data) :
    t = { s with
      port := t.port, commands := t.commands, points := t.points, alarms := t.alarms
      groups := t.groups, reports := t.reports, lamps := t.lamps } ∧
    Heard s t ∧ Acknowledged s t scope ∧ OnlyRedriven s t ∧ OneReply s t h code .ok data := by
  have hside := acknowledgeKeys_alarmSide (s.received.toAcknowledge scope) s.received
  have hacked := acknowledgeKeys_acknowledged (s := s.received) hk.distinct scope
  have hframe := acknowledgeAll_frame s.received scope
  have hsettled : OnlyRedriven s (s.received.acknowledgeAll scope) := onlyRedriven_settleLamps hside.lamps
  subst ht
  refine ⟨?_, heard_of_received ha hside.port, { hacked with }, hsettled.withCommands _,
    answered_oneReply hside.commands⟩
  generalize s.received.acknowledgeAll scope = u at hframe ⊢
  rw [hframe]
  rfl

/-! ### ACK POINT (R76) -/

theorem AlarmRecord.unacknowledged_iff (a : AlarmRecord) :
    a.unacknowledged = true ↔ a.state = .unack ∨ a.state = .rtnUnack := by
  simp [AlarmRecord.unacknowledged]

theorem AlarmRecord.unacknowledged_eq_false (a : AlarmRecord) :
    a.unacknowledged = false ↔ a.state = .normal ∨ a.state = .acked := by
  cases hst : a.state <;> simp [AlarmRecord.unacknowledged, hst]

/-- The state and generation answered after an acknowledgement: ACKED or NORMAL, and the generation
that stood. -/
theorem AlarmRecord.acknowledged_ackData {a : AlarmRecord} (h : a.unacknowledged = true) :
    a.acknowledged.ackData = [if a.state = .unack then 2 else 0, a.generation] := by
  rcases (AlarmRecord.unacknowledged_iff a).1 h with hst | hst <;>
    simp [AlarmRecord.ackData, AlarmRecord.acknowledged, hst, AlarmState.code, byteOf]

/-- The scope of one key of an unacknowledged entry is that key. -/
theorem toAcknowledge_key {s : State} (hd : KeysDistinct s.points) {e : PointEntry} (he : e ∈ s.points)
    (hu : e.unacknowledged = true) : s.toAcknowledge (fun x => x.key == e.key) = [e.key] := by
  have hselect : (s.points.filter fun x => x.key == e.key && x.unacknowledged) =
      s.points.filter ((· == e.key) ∘ (·.key)) := by
    refine List.filter_congr fun x hx => ?_
    by_cases hxe : x.key = e.key
    · simp [hd.eq hx he hxe, hu]
    · simp [hxe]
  have hmem : e.key ∈ s.points.map (·.key) := List.mem_map_of_mem he
  have hnodup : (s.points.map (·.key)).Nodup := (keysDistinct_iff _).1 hd
  calc s.toAcknowledge (fun x => x.key == e.key)
      = (s.points.map (·.key)).filter (· == e.key) := by
        rw [State.toAcknowledge, hselect, List.filter_map]
    _ = [e.key] := by
        rw [List.filter_beq, List.count_eq_one_of_mem hnodup hmem, List.replicate_one]

/-- The one entry of ACK POINT is acknowledged as the scope of its key. -/
theorem acknowledge_settled_eq {s : State} (hd : KeysDistinct s.points) {e : PointEntry}
    (he : e ∈ s.points) (hu : e.unacknowledged = true) :
    (s.acknowledge e.key).settleLamps = s.acknowledgeAll fun x => x.key == e.key := by
  rw [State.acknowledgeAll, toAcknowledge_key hd he hu]
  rfl

/-- The four checks of R76, with what each answers, and the command past them. -/
theorem takeAckPoint_cases (b : List Byte) (s : State) :
    (s.point (blockKey b) = none → takeAckPoint b s = .refuse s .notFound) ∧
    ∀ e, s.point (blockKey b) = some e →
      (e.alarm = none → takeAckPoint b s = .refuse s .noAlarm) ∧
      ∀ a, e.alarm = some a →
        (a.unacknowledged = false → takeAckPoint b s = ⟨s, some (.nothingToAck, a.ackData)⟩) ∧
        (a.unacknowledged = true → a.generation ≠ b.getD 3 0 →
          takeAckPoint b s = ⟨s, some (.staleAck, a.ackData)⟩) ∧
        (a.unacknowledged = true → a.generation = b.getD 3 0 →
          takeAckPoint b s = .ok (s.acknowledge e.key).settleLamps a.acknowledged.ackData) := by
  have hkey : keyField b 0 = blockKey b := rfl
  refine ⟨fun hnone => ?notFound, fun e he => ⟨fun hnone => ?noAlarm, fun a hsome =>
    ⟨fun hu => ?nothing, fun hu hg => ?stale, fun hu hg => ?passed⟩⟩⟩
  case notFound => simp only [takeAckPoint, hkey, hnone]
  case noAlarm => simp only [takeAckPoint, hkey, he, hnone]
  case nothing => simp [takeAckPoint, hkey, he, hsome, hu]
  case stale =>
    simp only [takeAckPoint, hkey, he, hsome, hu, Bool.not_true, Bool.false_eq_true, if_false, if_pos hg]
  case passed => simp [takeAckPoint, hkey, he, hsome, hu, hg]

/-- Settles O32: the checks of R76 taken in order. -/
theorem ackPointAcknowledgesTheGenerationItCarries :
    Obligations.AckPointAcknowledgesTheGenerationItCarries := by
  intro h b s ha hk hlen
  have refused {r : Result} {data : List Byte}
      (hr : takeAckPoint b s.received = ⟨s.received, some (r, data)⟩) :
      ∃ t, exec (.ackPoint h b) s = .next t ∧ AnsweredOnly s t h 0x40 r data :=
    arriveCommand_refused ha rfl hlen hr
  have hgen (g : Byte) : b[3]? = some g ↔ g = b.getD 3 0 := by
    simp [List.getD, List.getElem?_eq_getElem (l := b) (i := 3) (by omega), eq_comm]
  obtain ⟨notFound, held⟩ := takeAckPoint_cases b s.received
  cases hp : s.point (blockKey b) with
  | none =>
    obtain ⟨t, hexec, hans⟩ := refused (notFound hp)
    exact ⟨t, hexec, fun _ => hans, fun e he => by simp at he⟩
  | some e =>
    obtain ⟨noAlarm, recorded⟩ := held e hp
    cases hal : e.alarm with
    | none =>
      obtain ⟨t, hexec, hans⟩ := refused (noAlarm hal)
      simp only [reduceCtorEq, Option.some.injEq, forall_eq', hal, true_implies, false_implies,
        implies_true, true_and, and_true]
      exact ⟨t, hexec, hans⟩
    | some a =>
      obtain ⟨nothing, stale, passed⟩ := recorded a hal
      simp only [reduceCtorEq, Option.some.injEq, forall_eq', hal, false_implies, true_and, ne_eq,
        ← AlarmRecord.unacknowledged_iff, ← AlarmRecord.unacknowledged_eq_false, hgen]
      by_cases hu : a.unacknowledged = true
      · by_cases hg : a.generation = b.getD 3 0
        · have hentry : e.unacknowledged = true := by simp only [PointEntry.unacknowledged, hal, hu]
          have hacked : takeAckPoint b s.received = .ok (s.received.acknowledgeAll fun x => x.key == e.key)
              [if a.state = .unack then 2 else 0, a.generation] := by
            rw [passed hu hg, acknowledge_settled_eq (s := s.received) hk.distinct (point_mem hp) hentry,
              AlarmRecord.acknowledged_ackData hu]
          exact ⟨_, arriveCommand_answered ha (code := 0x40) rfl hlen hacked, by simp [hu],
            fun _ h => absurd hg h, fun _ _ => acknowledgeAll_answered ha hk rfl⟩
        · obtain ⟨t, hexec, hans⟩ := refused (stale hu hg)
          exact ⟨t, hexec, by simp [hu], fun _ _ => hans, fun _ h => absurd h hg⟩
      · rw [Bool.not_eq_true] at hu
        obtain ⟨t, hexec, hans⟩ := refused (nothing hu)
        exact ⟨t, hexec, fun _ => hans, by simp [hu], by simp [hu]⟩

/-! ### ACK GROUP and ACK ALL (R79, R80) -/

theorem toAcknowledge_length (s : State) (scope : PointEntry → Bool) :
    (s.toAcknowledge scope).length = s.points.countP fun e => scope e && e.unacknowledged := by
  rw [State.toAcknowledge, List.length_map, List.countP_eq_length_filter]

/-- Settles O33: each scope acknowledged as a whole, or BAD_PARAM. -/
theorem ackGroupAndAckAllAcknowledgeTheirScope : Obligations.AckGroupAndAckAllAcknowledgeTheirScope := by
  intro h x s ha hk
  have hall : exec (.ackAll h []) s = .next ((s.received.acknowledgeAll anyEntry).answered h 0x42
      (bytes16 (s.points.countP fun e => e.unacknowledged))) :=
    arriveCommand_answered ha (code := 0x42) rfl rfl (by
      change takeAckAll s.received = _
      rw [takeAckAll, toAcknowledge_length]
      rfl)
  by_cases hg : 1 ≤ x.toNat ∧ x.toNat ≤ 16
  · have hgroup : exec (.ackGroup h [x]) s = .next ((s.received.acknowledgeAll (inGroup x.toNat)).answered h
        0x41 (bytes16 (s.points.countP fun e => e.group == x.toNat && e.unacknowledged))) :=
      arriveCommand_answered ha (code := 0x41) rfl rfl (by
        change takeAckGroup [x] s.received = _
        simp only [takeAckGroup, field8_cons_zero, hg, and_self, if_true, toAcknowledge_length]
        rfl)
    exact ⟨_, _, hgroup, hall, fun hbad => by omega, fun _ => acknowledgeAll_answered ha hk rfl,
      acknowledgeAll_answered ha hk rfl⟩
  · obtain ⟨t, hexec, hans⟩ := arriveCommand_refused ha (code := 0x41) (params := [x]) (r := .badParam)
      (data := []) rfl rfl (by
        change takeAckGroup [x] s.received = _
        simp only [takeAckGroup, field8_cons_zero, hg, if_false]
        rfl)
    exact ⟨t, _, hexec, hall, fun _ => hans, fun hin => absurd hin hg, acknowledgeAll_answered ha hk rfl⟩

/-! ### SILENCE and HORN SET (R71 to R73) -/

theorem AlarmUnit.silence_eq (a : AlarmUnit) :
    a.silence = { a with horn := if a.horn = .sounding then .silenced else a.horn } := by
  unfold AlarmUnit.silence
  split <;> rfl

/-- HORN SET by its three fields: refused where one is neither on nor off, carried out otherwise. -/
theorem takeHornSet_cases (b : List Byte) (s : State) :
    (1 < field8 b 0 ∨ 1 < field8 b 1 ∨ 1 < field8 b 2 → takeHornSet b s = .refuse s .badParam) ∧
    (field8 b 0 ≤ 1 ∧ field8 b 1 ≤ 1 ∧ field8 b 2 ≤ 1 → takeHornSet b s =
      .ok (s.setHornEnables (field8 b 0 = 1) (field8 b 1 = 1) (field8 b 2 = 1))) := by
  constructor
  · intro hbad
    unfold takeHornSet
    split
    next e1 e2 e3 h0 h1 h2 =>
      have := (boolOfCode_eq_some.1 h0).1
      have := (boolOfCode_eq_some.1 h1).1
      have := (boolOfCode_eq_some.1 h2).1
      omega
    next => rfl
  · rintro ⟨h0, h1, h2⟩
    simp only [takeHornSet, boolOfCode_eq_some.2 ⟨h0, rfl⟩, boolOfCode_eq_some.2 ⟨h1, rfl⟩,
      boolOfCode_eq_some.2 ⟨h2, rfl⟩]

/-- The alarm unit after HORN SET, in the words of R71 and R73. -/
theorem setHornEnables_alarms {s : State} {e1 e2 e3 : Bool} {u : AlarmUnit}
    (hu : u = (s.setHornEnables e1 e2 e3).alarms) : u = { s.alarms with
      enable1 := e1, enable2 := e2, enable3 := e3
      hornCount := s.points.countP fun e => e.alarmState == .unack &&
        ((e.priority == 1 && e1) || (e.priority == 2 && e2) || (e.priority == 3 && e3))
      horn := if u.hornCount = 0 then .off else s.alarms.horn } := by
  have hcount : hornCountOf { s.alarms with enable1 := e1, enable2 := e2, enable3 := e3 } s.points =
      s.points.countP fun e => e.alarmState == .unack &&
        ((e.priority == 1 && e1) || (e.priority == 2 && e2) || (e.priority == 3 && e3)) := by
    rw [hornCountOf, ← List.countP_eq_length_filter, ← AlarmUnit.hornOn_eq]
    rfl
  subst hu
  simp only [State.setHornEnables, hcount, AlarmUnit.quiet]
  split <;> rfl

/-- Settles O34: the horn silenced; the enables set and the count worked out anew, or BAD_PARAM. -/
theorem silenceAndHornSetActOnTheHorn : Obligations.SilenceAndHornSetActOnTheHorn := by
  intro h b s ha hlen
  obtain ⟨refused, accepted⟩ := takeHornSet_cases b s.received
  have hsilence : exec (.silence h []) s = .next (s.received.silenceHorn.answered h 0x43 []) :=
    arriveCommand_answered ha (code := 0x43) rfl rfl rfl
  have hsilenced : s.received.silenceHorn.answered h 0x43 [] = { s with
      port := s.received.port, commands := (s.received.silenceHorn.answered h 0x43 []).commands
      alarms := { s.alarms with
        horn := if s.alarms.horn = .sounding then .silenced else s.alarms.horn } } := by
    rw [← AlarmUnit.silence_eq]
    rfl
  by_cases hbad : 1 < field8 b 0 ∨ 1 < field8 b 1 ∨ 1 < field8 b 2
  · obtain ⟨u, hexec, hans⟩ := arriveCommand_refused ha (code := 0x44) (r := .badParam) (data := [])
      rfl hlen (refused hbad)
    exact ⟨_, u, hsilence, hexec, hsilenced, heard_of_received ha rfl, answered_oneReply rfl,
      fun _ => hans, fun hok => by omega⟩
  · have hok : field8 b 0 ≤ 1 ∧ field8 b 1 ≤ 1 ∧ field8 b 2 ≤ 1 := by omega
    have hset : exec (.hornSet h b) s = .next (State.answered (s.received.setHornEnables (field8 b 0 = 1)
        (field8 b 1 = 1) (field8 b 2 = 1)) h 0x44 []) :=
      arriveCommand_answered ha (code := 0x44) rfl hlen (accepted hok)
    exact ⟨_, _, hsilence, hset, hsilenced, heard_of_received ha rfl, answered_oneReply rfl,
      fun hbad' => absurd hbad' hbad, fun _ => ⟨rfl, heard_of_received ha rfl, answered_oneReply rfl,
        setHornEnables_alarms (s := s.received) rfl⟩⟩

end Sys2Proof.Machine
end

section
/-! The lamps and the panel as the laws of R89 and R137 read them: what a change must leave alone for every
channel to go on showing what R89 gives it, and for the lines, lamp test, HOLD and a sweep to agree. -/

namespace Sys2Proof.Machine

/-! ### What the lamps show is read from (R89) -/

/-- What R89 reads beside a channel's own record. -/
def State.driveSide (s : State) : Bool × Bool × Bool × Option Sweep × List PointEntry ×
    List OutstationEntry × Supervision × Vector Group 16 :=
  (s.assigned, s.panel.lampTest, s.lamps.holdEnds.isSome, s.lamps.sweep, s.points, s.outstations,
    s.supervisor.state, s.groups)

/-- The quality of a point depends on the supervision state alone of the supervisor (R47). -/
theorem quality_of_supervision {s t : State} (ho : t.outstations = s.outstations)
    (hv : t.supervisor.state = s.supervisor.state) (e : PointEntry) : t.quality e = s.quality e := by
  rw [← quality_congr (s := s) (t := { t with supervisor := s.supervisor }) ho rfl e]
  simp only [State.quality, hv]
  rfl

theorem drive_of_driveSide {s t : State} (h : t.driveSide = s.driveSide) (c : Nat) {ch ch' : Channel}
    (hheld : ch'.held = ch.held) (hover : ch'.override = ch.override) (hbound : ch'.binding = ch.binding) :
    t.drive c ch' = s.drive c ch := by
  simp only [State.driveSide, Prod.mk.injEq] at h
  obtain ⟨hn, hl, hh, hw, hp, ho, hv, hg⟩ := h
  have hcompose : t.compose = s.compose := by
    funext e k
    have hholder : t.isHolder e = s.isHolder e := by unfold State.isHolder State.group; rw [hg]
    simp only [State.compose, quality_of_supervision ho hv, hholder]
  have hlow : t.lowerLevel c ch' = s.lowerLevel c ch := by
    simp only [State.lowerLevel, State.point, hover, hbound, hp, hcompose]
  have hstation : t.port.station = none ↔ s.port.station = none := by
    simpa [State.assigned] using congrArg (· = false) hn
  simp only [State.drive, State.sweepLevel, hstation, hl, hh, hheld, hw, hlow]

/-- A channel's driven level and source, and what R89 reads of its record. -/
def Channel.shown (ch : Channel) : Level × Source × Option Level × Option Level × Option Key :=
  (ch.driven, ch.source, ch.held, ch.override, ch.binding)

theorem LampsSettled.same {s t : State} (hs : LampsSettled s) (h : t.driveSide = s.driveSide)
    (hc : ∀ (c : Nat) (h : c < 256), t.lamps.channels[c].shown = s.lamps.channels[c].shown) :
    LampsSettled t := by
  intro c hlt
  have hshown := hc c hlt
  simp only [Channel.shown, Prod.mk.injEq] at hshown
  obtain ⟨hdriven, hsource, hheld, hover, hbound⟩ := hshown
  rw [drive_of_driveSide h c hheld hover hbound, hdriven, hsource]
  exact hs c hlt

/-! ### Lines, lamp test and sweep in agreement (R137 to R142, R108) -/

/-- What a line's record keeps to by itself (R137, R139, R140, R147). -/
structure LineLawful (l : Line) : Prop where
  group : if l.function = .ackGroup then 1 ≤ l.group ∧ l.group ≤ 16 else l.group = 0
  output : l.direction = .output → l.level = none ∧ l.timer = none
  settling : l.direction = .input → l.level = none → l.timer.isSome

/-- The laws of `PanelAgrees` that do not speak of lamp test. -/
structure PanelSound (s : State) : Prop where
  mismatch : ∀ (c : Nat) (h : c < 256), s.lamps.channels[c].mismatch ≤ 2
  held : ∀ (c : Nat) (h : c < 256), s.lamps.channels[c].held.isSome = s.lamps.holdEnds.isSome
  debounce : 10 ≤ s.panel.debounce ∧ s.panel.debounce ≤ 250 ∧ s.panel.debounce % 10 = 0
  lines : ∀ i, LineLawful (s.line i)
  sweep : ∀ w, s.lamps.sweep = some w → w.bank ≤ 15 ∧ w.step ≤ 16

/-- Lamp test follows the lines, and a sweep is PAUSED exactly while it is active (R108, R142). -/
structure LampTestAgrees (s : State) : Prop where
  lampTest : s.panel.lampTest = s.lampTestHeld
  paused : ∀ w, s.lamps.sweep = some w → (w.run = .paused ↔ s.panel.lampTest = true)

theorem lampTestHeld_iff_line (s : State) :
    s.lampTestHeld = true ↔ ∃ i, (s.line i).holdsLampTest = true := by
  unfold State.lampTestHeld
  rw [List.any_eq_true]
  constructor
  · rintro ⟨l, hl, hheld⟩
    obtain ⟨i, hi, rfl⟩ := Vector.mem_iff_getElem.1 (Vector.mem_toList_iff.1 hl)
    exact ⟨⟨i, hi⟩, hheld⟩
  · rintro ⟨i, hheld⟩
    exact ⟨s.line i, Vector.mem_toList_iff.2 (Vector.getElem_mem i.isLt), hheld⟩

theorem lampTestHeld_iff (s : State) : s.lampTestHeld = true ↔ ∃ i, (s.line i).direction = .input ∧
    (s.line i).function = .lampTest ∧ (s.line i).inputActive = true := by
  simp only [lampTestHeld_iff_line, Line.holdsLampTest, Bool.and_eq_true, beq_iff_eq, and_assoc]

theorem panelAgrees_iff (s : State) : PanelAgrees s ↔ PanelSound s ∧ LampTestAgrees s where
  mp h := ⟨⟨h.mismatch, h.held, h.debounce, fun i => ⟨h.group i, h.output i, h.settling i⟩,
      fun w hw => (h.sweep w hw).2⟩,
    ⟨Bool.eq_iff_iff.2 (h.lampTest.trans (lampTestHeld_iff s).symm), fun w hw => (h.sweep w hw).1⟩⟩
  mpr := fun ⟨hs, ht⟩ => {
    hs with
    group := fun i => (hs.lines i).group
    output := fun i => (hs.lines i).output
    settling := fun i => (hs.lines i).settling
    lampTest := by rw [ht.lampTest]; exact lampTestHeld_iff s
    sweep := fun w hw => ⟨ht.paused w hw, hs.sweep w hw⟩ }

/-! ### Changes that leave the panel, HOLD and the sweep standing -/

/-- The lines and lamp test, HOLD in effect or not, the held levels and the sweep stay as they are, and no
mismatch run leaves its range. -/
structure PanelStands (s t : State) : Prop where
  panel : t.panel = s.panel
  hold : t.lamps.holdEnds.isSome = s.lamps.holdEnds.isSome
  sweep : t.lamps.sweep = s.lamps.sweep
  held : ∀ (c : Nat) (h : c < 256), t.lamps.channels[c].held = s.lamps.channels[c].held
  mismatch : ∀ (c : Nat) (h : c < 256), s.lamps.channels[c].mismatch ≤ 2 → t.lamps.channels[c].mismatch ≤ 2

/-- What `PanelStands` compares, whole. -/
def State.panelSide (s : State) : LineUnit × Bool × Option Sweep × Vector Channel 256 :=
  (s.panel, s.lamps.holdEnds.isSome, s.lamps.sweep, s.lamps.channels)

namespace PanelStands

theorem same {s t : State} (h : t.panelSide = s.panelSide) : PanelStands s t := by
  simp only [State.panelSide, Prod.mk.injEq] at h
  obtain ⟨hp, hh, hw, hc⟩ := h
  exact ⟨hp, hh, hw, fun _ _ => by simp only [hc], fun _ _ => by simp only [hc]; exact id⟩

theorem refl (s : State) : PanelStands s s := same rfl

theorem trans {s t u : State} (h : PanelStands s t) (h' : PanelStands t u) : PanelStands s u where
  panel := h'.panel.trans h.panel
  hold := h'.hold.trans h.hold
  sweep := h'.sweep.trans h.sweep
  held c hc := (h'.held c hc).trans (h.held c hc)
  mismatch c hc hs := h'.mismatch c hc (h.mismatch c hc hs)

theorem foldl {α : Type} {f : State → α → State} (h : ∀ s a, PanelStands s (f s a)) (l : List α)
    (s : State) : PanelStands s (l.foldl f s) :=
  foldl_related PanelStands refl (fun _ _ _ => trans) f h l s

theorem ite {p : Prop} [Decidable p] {s t u : State} (ht : PanelStands s t) (hu : PanelStands s u) :
    PanelStands s (if p then t else u) := by
  split
  · exact ht
  · exact hu

theorem of_alarmSide {s t : State} (h : AlarmSide s t) : PanelStands s t := by
  refine same ?_
  rw [h]
  rfl

end PanelStands

theorem mapChannels_panelStands (s : State) {f : Nat → Channel → Channel}
    (hheld : ∀ c ch, (f c ch).held = ch.held) (hrun : ∀ c ch, ch.mismatch ≤ 2 → (f c ch).mismatch ≤ 2) :
    PanelStands s (s.mapChannels f) where
  panel := rfl
  hold := rfl
  sweep := rfl
  held c hc := by rw [mapChannels_channel s f c hc, hheld]
  mismatch c hc := by rw [mapChannels_channel s f c hc]; exact hrun c _

theorem settleLamps_panelStands (s : State) : PanelStands s s.settleLamps :=
  mapChannels_panelStands s (fun _ _ => rfl) fun _ _ => id

theorem PanelSound.stand {s t : State} (h : PanelSound s) (hs : PanelStands s t) : PanelSound t where
  mismatch c hc := hs.mismatch c hc (h.mismatch c hc)
  held c hc := by rw [hs.held c hc, hs.hold]; exact h.held c hc
  debounce := by rw [hs.panel]; exact h.debounce
  lines i := by rw [State.line, hs.panel]; exact h.lines i
  sweep := by rw [hs.sweep]; exact h.sweep

theorem LampTestAgrees.stand {s t : State} (h : LampTestAgrees s) (hs : PanelStands s t) :
    LampTestAgrees t where
  lampTest := by rw [State.lampTestHeld, hs.panel]; exact h.lampTest
  paused := by rw [hs.sweep, hs.panel]; exact h.paused

theorem PanelAgrees.stand {s t : State} (h : PanelAgrees s) (hs : PanelStands s t) : PanelAgrees t := by
  rw [panelAgrees_iff] at h ⊢
  exact ⟨h.1.stand hs, h.2.stand hs⟩

/-! ### Both laws kept -/

/-- A change keeps both laws: every channel goes on showing what R89 gives it, and the lines, lamp test, HOLD
and a sweep stay in agreement. -/
structure LampsKept (s t : State) : Prop where
  settled : LampsSettled s → LampsSettled t
  agrees : PanelAgrees s → PanelAgrees t

namespace LampsKept

theorem refl (s : State) : LampsKept s s := ⟨id, id⟩

theorem trans {s t u : State} (h : LampsKept s t) (h' : LampsKept t u) : LampsKept s u :=
  ⟨h'.settled ∘ h.settled, h'.agrees ∘ h.agrees⟩

theorem foldl {α : Type} {f : State → α → State} (h : ∀ s a, LampsKept s (f s a)) (l : List α)
    (s : State) : LampsKept s (l.foldl f s) :=
  foldl_related LampsKept refl (fun _ _ _ => trans) f h l s

theorem ite {p : Prop} [Decidable p] {s t u : State} (ht : p → LampsKept s t) (hu : ¬ p → LampsKept s u) :
    LampsKept s (if p then t else u) := by
  split
  next h => exact ht h
  next h => exact hu h

/-- A change that R89 does not read and that leaves the panel standing. -/
theorem stand {s t : State} (hs : PanelStands s t) (hd : t.driveSide = s.driveSide)
    (hc : ∀ (c : Nat) (h : c < 256), t.lamps.channels[c].shown = s.lamps.channels[c].shown) :
    LampsKept s t :=
  ⟨fun h => h.same hd hc, fun h => h.stand hs⟩

/-- A change of nothing that either law reads. -/
theorem same {s t : State} (hp : t.panelSide = s.panelSide) (hd : t.driveSide = s.driveSide) :
    LampsKept s t :=
  stand (.same hp) hd fun c hc => by
    have hchannels : t.lamps.channels = s.lamps.channels := congrArg (·.2.2.2) hp
    simp only [hchannels]

/-- Lamps settled at the end of a change show what R89 gives them, whatever the change. -/
theorem settling {s t : State} (h : PanelAgrees s → PanelAgrees t) : LampsKept s t.settleLamps :=
  ⟨fun _ => settleLamps_settled t, fun hs => (h hs).stand (settleLamps_panelStands t)⟩

end LampsKept

theorem PanelStands.settled {s t : State} (h : PanelStands s t) : LampsKept s t.settleLamps :=
  .settling fun hs => hs.stand h

end Sys2Proof.Machine
end

section
/-! What a change of the lines, of lamp test, HOLD, a sweep or the channels does to the laws of the panel, and
the operations that keep every channel showing what R89 gives it. -/

namespace Sys2Proof.Machine

/-! ### Lines changed (R137 to R142, R146, R147) -/

/-- Lines changed one by one, and the debounce time, each within its law. -/
theorem PanelSound.withPanel {s : State} (h : PanelSound s) {p : LineUnit}
    (hd : 10 ≤ p.debounce ∧ p.debounce ≤ 250 ∧ p.debounce % 10 = 0)
    (hl : ∀ (i : Nat) (hi : i < 8), LineLawful p.lines[i]) : PanelSound { s with panel := p } :=
  { h with debounce := hd, lines := fun i => hl i.val i.isLt }

theorem PanelSound.modifyLine {s : State} (h : PanelSound s) {i : Fin 8} {f : Line → Line}
    (hf : LineLawful (f (s.line i))) : PanelSound (s.modifyLine i f) := by
  refine { h with lines := fun j => ?_ }
  rw [modifyLine_line]
  by_cases hj : j = i
  · subst hj; rwa [if_pos rfl]
  · rw [if_neg hj]; exact h.lines j

theorem holdsLampTest_of_fields {l l' : Line} (hd : l'.direction = l.direction)
    (hf : l'.function = l.function) (hp : l'.polarity = l.polarity) (hl : l'.level = l.level) :
    l'.holdsLampTest = l.holdsLampTest := by
  simp only [Line.holdsLampTest, Line.inputActive, hd, hf, hp, hl]

/-- Lines of which none begins or ceases to hold lamp test leave lamp test as it is (R142). -/
theorem LampTestAgrees.withLines {s t : State} (h : LampTestAgrees s)
    (hl : ∀ i, (t.line i).holdsLampTest = (s.line i).holdsLampTest)
    (ht : t.panel.lampTest = s.panel.lampTest) (hw : t.lamps.sweep = s.lamps.sweep) : LampTestAgrees t where
  lampTest := by
    have hheld : t.lampTestHeld = s.lampTestHeld := by
      rw [Bool.eq_iff_iff, lampTestHeld_iff_line, lampTestHeld_iff_line]
      simp only [hl]
    rw [ht, hheld, h.lampTest]
  paused := by rw [hw, ht]; exact h.paused

/-- A line's record changed in nothing that lamp test is read from. -/
theorem modifyLine_lampsKept (s : State) {i : Fin 8} {f : Line → Line}
    (hlaw : LineLawful (s.line i) → LineLawful (f (s.line i)))
    (hheld : ∀ l, (f l).holdsLampTest = l.holdsLampTest) : LampsKept s (s.modifyLine i f) where
  settled h := h.same rfl fun _ _ => rfl
  agrees h := by
    rw [panelAgrees_iff] at h ⊢
    obtain ⟨hs, ht⟩ := h
    refine ⟨hs.modifyLine (hlaw (hs.lines i)), ht.withLines (fun j => ?_) rfl rfl⟩
    rw [modifyLine_line]
    split
    · exact hheld _
    · rfl

theorem pinBecomes_lawful {l : Line} (h : LineLawful l) (level : PinLevel) (now : Nat) :
    LineLawful (l.pinBecomes level now) := by
  unfold Line.pinBecomes
  split
  · exact h
  · refine ⟨h.group, fun ho => ?_, fun hi _ => ?_⟩
    · obtain ⟨hlevel, htimer⟩ := h.output ho
      have ho' : l.direction = .output := ho
      simp only [ho']
      exact ⟨hlevel, htimer⟩
    · have hi' : l.direction = .input := hi
      simp only [hi']
      rfl

theorem pinBecomes_holdsLampTest (level : PinLevel) (now : Nat) (l : Line) :
    (l.pinBecomes level now).holdsLampTest = l.holdsLampTest := by
  unfold Line.pinBecomes
  split <;> rfl

theorem writeLatches_line (s : State) (mask values : Byte) (i : Fin 8) :
    (s.writeLatches mask values).line i =
      if mask.getLsbD i then { s.line i with latch := values.getLsbD i } else s.line i :=
  Table.mapIdx_getElem _ _ _ i.isLt

theorem writeLatches_lampsKept (s : State) (mask values : Byte) :
    LampsKept s (s.writeLatches mask values) where
  settled h := h.same rfl fun _ _ => rfl
  agrees h := by
    rw [panelAgrees_iff] at h ⊢
    obtain ⟨hs, ht⟩ := h
    refine ⟨{ hs with lines := fun i => ?_ }, ht.withLines (fun i => ?_) rfl rfl⟩
    · have hi := hs.lines i
      rw [writeLatches_line]
      split
      · exact ⟨hi.group, hi.output, hi.settling⟩
      · exact hi
    · rw [writeLatches_line]
      split <;> rfl

/-! ### Lamp test followed (R108, R142) -/

theorem Sweep.follow_bank_step (w : Sweep) (lampTest : Bool) (ends : Nat) :
    (w.follow lampTest ends).bank = w.bank ∧ (w.follow lampTest ends).step = w.step := by
  unfold Sweep.follow
  split <;> exact ⟨rfl, rfl⟩

theorem Sweep.follow_paused (w : Sweep) (lampTest : Bool) (ends : Nat) :
    (w.follow lampTest ends).run = .paused ↔ lampTest = true := by
  unfold Sweep.follow
  cases hr : w.run <;> cases lampTest <;> simp [hr]

/-- Following lamp test brings lamp test and the sweep into agreement with whatever lines there are. -/
theorem PanelSound.followLampTest {s : State} (h : PanelSound s) : PanelAgrees s.followLampTest := by
  refine PanelAgrees.stand ?_ (settleLamps_panelStands _)
  rw [panelAgrees_iff]
  refine ⟨{ h with sweep := fun w hw => ?_ }, rfl, fun w hw => ?_⟩
  · obtain ⟨w', hw', rfl⟩ := Option.map_eq_some_iff.1 hw
    obtain ⟨hbank, hstep⟩ := w'.follow_bank_step s.lampTestHeld s.dwellFromNow
    rw [hbank, hstep]
    exact h.sweep w' hw'
  · obtain ⟨w', -, rfl⟩ := Option.map_eq_some_iff.1 hw
    exact w'.follow_paused _ _

/-- Lines changed within their laws, then lamp test followed. -/
theorem followLampTest_lampsKept {s t : State} (h : PanelSound s → PanelSound t) :
    LampsKept s t.followLampTest :=
  ⟨fun _ => settleLamps_settled _, fun hs => (h ((panelAgrees_iff s).1 hs).1).followLampTest⟩

/-! ### Debounce and presses (R139 to R141) -/

theorem acknowledgeAll_panelStands (s : State) (scope : PointEntry → Bool) :
    PanelStands s (s.acknowledgeAll scope) :=
  (PanelStands.of_alarmSide (acknowledgeKeys_alarmSide _ s)).trans (settleLamps_panelStands _)

theorem press_panelStands (s : State) (i : Fin 8) (l : Line) : PanelStands s (s.press i l) := by
  have h : PanelStands s (s.record (.key i.val l.function l.group)) := .same rfl
  unfold State.press State.performKey
  repeat' split
  · exact .refl s
  · exact h.trans (acknowledgeAll_panelStands _ _)
  · exact h.trans (acknowledgeAll_panelStands _ _)
  all_goals exact h.trans (.same rfl)

theorem debounced_lawful {l : Line} (h : LineLawful l) (ht : l.timer.isSome) : LineLawful l.debounced where
  group := h.group
  output ho := by rw [(h.output ho).2] at ht; exact absurd ht Bool.false_ne_true
  settling _ hl := nomatch hl

theorem dropTimer_lawful {l : Line} (h : LineLawful l) {v : PinLevel} (hl : l.level = some v) :
    LineLawful l.dropTimer where
  group := h.group
  output ho := ⟨(h.output ho).1, rfl⟩
  settling _ hn := by rw [show l.dropTimer.level = some v from hl] at hn; exact nomatch hn

/-- The debounce timer of a line expiring, where it runs. -/
theorem debounceExpires_lampsKept (s : State) (i : Fin 8) (ht : (s.line i).timer.isSome) :
    LampsKept s (s.debounceExpires i) := by
  have debounced (h : PanelSound s) : PanelSound (s.modifyLine i Line.debounced) :=
    h.modifyLine (debounced_lawful (h.lines i) ht)
  unfold State.debounceExpires
  dsimp only
  split
  next => exact followLampTest_lampsKept debounced
  next v hv =>
    refine .ite (fun _ => ?_) fun _ => .ite (fun _ => ?_) fun _ => ?_
    · exact modifyLine_lampsKept s (fun h => dropTimer_lawful h hv) fun _ => rfl
    · exact followLampTest_lampsKept fun h => (debounced h).stand (press_panelStands _ _ _)
    · exact followLampTest_lampsKept debounced

theorem takeDebounce_lampsKept (s : State) (i : Fin 8) : LampsKept s (s.takeDebounce i) := by
  unfold State.takeDebounce
  split
  next t ht =>
    have htimer : (s.line i).timer.isSome := by
      cases h : (s.line i).timer with
      | none => simp [State.debounceDue, h] at ht
      | some _ => rfl
    exact .trans (t := s.advanceTo (1000 * t)) (.same rfl rfl) (debounceExpires_lampsKept _ i htimer)
  next => exact .refl s

/-! ### LINE SET (R138, R147, R148) -/

theorem configure_lawful {l : Line} (h : LineLawful l) {b : List Byte} {f : LineSetting}
    (hf : lineSettingField b = some f) (now : Nat) : LineLawful (l.configure f now) := by
  have hgroup : if f.function = .ackGroup then 1 ≤ f.group ∧ f.group ≤ 16 else f.group = 0 := by
    unfold lineSettingField at hf
    split at hf
    next =>
      split at hf
      next hack =>
        split at hf <;> cases hf
        next hrange => rw [if_pos hack]; exact hrange
      next hack => cases hf; rw [if_neg hack]
    next => exact nomatch hf
  unfold Line.configure
  dsimp only
  split
  next hnew => exact ⟨hgroup, fun _ => ⟨rfl, rfl⟩, fun hi => (nomatch hnew.symm.trans hi)⟩
  next hnew => exact ⟨hgroup, fun ho => (nomatch hnew.symm.trans ho), fun _ _ => rfl⟩
  next hto hback =>
    refine ⟨hgroup, fun ho => ?_, fun hi => ?_⟩
    · cases hold : l.direction with
      | input => exact absurd ho (hto hold)
      | output => exact h.output hold
    · cases hold : l.direction with
      | input => exact h.settling hold
      | output => exact absurd hi (hback hold)

theorem debounceField_range (b : List Byte) :
    10 ≤ debounceField b ∧ debounceField b ≤ 250 ∧ debounceField b % 10 = 0 := by
  unfold debounceField clamp
  omega

theorem debounceAllOver_lampsKept (s : State) : LampsKept s s.debounceAllOver := by
  refine .foldl (fun t i => .ite (fun hover => debounceExpires_lampsKept t i ?_) fun _ => .refl t) _ s
  cases h : (t.line i).timer with
  | none => simp [State.debounceOver, State.debounceDue, h] at hover
  | some _ => rfl

theorem setDebounce_lampsKept (s : State) {ms : Nat} (h : 10 ≤ ms ∧ ms ≤ 250 ∧ ms % 10 = 0) :
    LampsKept s (s.setDebounce ms) where
  settled hs := hs.same rfl fun _ _ => rfl
  agrees hs := by
    rw [panelAgrees_iff] at hs ⊢
    exact ⟨{ hs.1 with debounce := h }, hs.2.withLines (fun _ => rfl) rfl rfl⟩

theorem setLine_lampsKept (s : State) (i : Fin 8) {b : List Byte} {f : LineSetting}
    (hf : lineSettingField b = some f) : LampsKept s (s.setLine i f (debounceField b)) := by
  have configured : LampsKept s (s.modifyLine i (·.configure f s.now)).followLampTest :=
    followLampTest_lampsKept fun h => h.modifyLine (configure_lawful (h.lines i) hf _)
  unfold State.setLine
  exact (configured.trans (setDebounce_lampsKept _ (debounceField_range b))).trans
    (debounceAllOver_lampsKept _)

theorem takeLineSet_lampsKept (b : List Byte) (s : State) : LampsKept s (takeLineSet b s).state := by
  unfold takeLineSet
  split
  next hf => simpa only [Answer.ok] using setLine_lampsKept s _ hf
  next => exact .refl s

end Sys2Proof.Machine
end

section
/-! Sensing, sweeps, HOLD, the tables and telemetry: each operation keeps every channel showing what R89 gives
it, and the lines, lamp test, HOLD and a sweep in agreement. -/

namespace Sys2Proof.Machine

/-! ### Sensing (R100 to R102) -/

theorem Channel.judge_shown (ch : Channel) (expected current : Bool) :
    (ch.judge expected current).channel.shown = ch.shown := by
  unfold Channel.judge
  dsimp only
  repeat' split
  all_goals rfl

theorem Channel.judge_mismatch {ch : Channel} (h : ch.mismatch ≤ 2) (expected current : Bool) :
    (ch.judge expected current).channel.mismatch ≤ 2 := by
  unfold Channel.judge
  dsimp only
  repeat' split
  all_goals (dsimp only; omega)

/-- Channels changed in nothing that R89 reads or gives, with no mismatch run out of its range. -/
theorem mapChannels_lampsKept (s : State) {f : Nat → Channel → Channel}
    (hshown : ∀ c ch, (f c ch).shown = ch.shown)
    (hrun : ∀ c ch, ch.mismatch ≤ 2 → (f c ch).mismatch ≤ 2) : LampsKept s (s.mapChannels f) :=
  .stand (mapChannels_panelStands s (fun c ch => congrArg (·.2.2.1) (hshown c ch)) hrun) rfl
    fun c hc => by rw [mapChannels_channel s f c hc, hshown]

theorem sense_lampsKept (s : State) (expects : Nat → Channel → Option Bool) (currents : BitVec 256) :
    LampsKept s (s.sense expects currents) := by
  refine (mapChannels_lampsKept s (fun c ch => ?_) fun c ch hrun => ?_).trans
    (.foldl (fun u f => .same (by rfl) (by rfl)) _ _)
  · dsimp only
    split
    · exact ch.judge_shown _ _
    · rfl
  · dsimp only
    split
    · exact Channel.judge_mismatch hrun _ _
    · exact hrun

theorem takeSenseTimer_lampsKept (s : State) (currents : BitVec 256) :
    LampsKept s (s.takeSenseTimer currents) := by
  have h (u : State) : LampsKept u { u with lamps := { u.lamps with
      senseDue := u.lamps.senseDue + Config.senseInterval } } := .same rfl rfl
  refine .trans (t := s.advanceTo (1000 * s.lamps.senseDue)) (.same rfl rfl) ?_
  exact .ite (fun _ => (h _).trans (sense_lampsKept _ _ _)) fun _ => h _

theorem takePhaseEnd_lampsKept (s : State) (c : Cadence) (currents : BitVec 256) :
    LampsKept s (s.takePhaseEnd c currents) := by
  unfold State.takePhaseEnd
  split
  next ended t _ =>
    refine .trans (t := s.advanceTo (1000 * t)) (.same rfl rfl) ?_
    unfold State.endPhase
    exact .trans (.ite (fun _ => sense_lampsKept _ _ _) fun _ => .refl _) (.same rfl rfl)
  next => exact .refl s

theorem clearFaults_lampsKept (s : State) (bank : Nat) : LampsKept s (s.clearFaults bank) :=
  mapChannels_lampsKept s (fun c ch => by split <;> rfl) fun c ch hrun => by
    split
    · exact Nat.zero_le 2
    · exact hrun

/-! ### The prove sweep (R105 to R109) -/

theorem PanelAgrees.withSweep {s : State} (h : PanelAgrees s) {sweep : Option Sweep}
    (hsweep : ∀ w, sweep = some w →
      (w.run = .paused ↔ s.panel.lampTest = true) ∧ w.bank ≤ 15 ∧ w.step ≤ 16) :
    PanelAgrees (s.withSweep sweep) :=
  { h with sweep := hsweep }

theorem takeProve_lampsKept (tag : Byte) (b : List Byte) (s : State) :
    LampsKept s (takeProve tag b s).state := by
  unfold takeProve
  dsimp only
  repeat' split
  · exact .refl s
  · exact .refl s
  next hbank _ =>
    refine .settling fun h => PanelAgrees.stand (s := s.withSweep _) (h.withSweep fun w hw => ?_) (.same rfl)
    cases hw
    refine ⟨?_, Nat.le_of_not_lt hbank, Nat.zero_le 16⟩
    cases s.panel.lampTest <;> simp

theorem Sweep.judgeLamp_held (w : Sweep) (k : Nat) (current : Bool) (ch : Channel) :
    (w.judgeLamp k current ch).channel.held = ch.held := by
  unfold Sweep.judgeLamp
  dsimp only
  repeat' split
  all_goals rfl

theorem Sweep.judgeLamp_mismatch (w : Sweep) (k : Nat) (current : Bool) {ch : Channel}
    (h : ch.mismatch ≤ 2) : (w.judgeLamp k current ch).channel.mismatch ≤ 2 := by
  unfold Sweep.judgeLamp
  dsimp only
  repeat' split
  all_goals first | exact h | exact Nat.zero_le 2

theorem judgeStep_panelStands (s : State) (w : Sweep) (samples : BitVec 16) :
    PanelStands s (s.judgeStep w samples) := by
  refine (mapChannels_panelStands s (fun c ch => ?_) fun c ch hrun => ?_).trans
    (.foldl (fun u f => .same (by rfl)) _ _)
  · dsimp only
    split
    · exact w.judgeLamp_held _ _ _
    · rfl
  · dsimp only
    split
    · exact w.judgeLamp_mismatch _ _ hrun
    · exact hrun

theorem Sweep.note_bank (w : Sweep) (samples : BitVec 16) : (w.note samples).bank = w.bank := by
  unfold Sweep.note
  repeat' split
  all_goals rfl

/-- The end of a dwell of the RUNNING sweep, which lamp test has not paused (R108). -/
theorem endDwell_lampsKept (s : State) {w : Sweep} {ends : Nat} (hw : s.lamps.sweep = some w)
    (hrun : w.run = .running ends) (currents : BitVec 256) : LampsKept s (s.endDwell w currents) := by
  have hjudged := judgeStep_panelStands s w (bankSamples w.bank currents)
  unfold State.endDwell
  dsimp only
  refine .ite (fun hstep => .settling fun h => ?_) fun _ => .settling fun h => ?_
  · refine (h.stand hjudged).withSweep fun w' hw' => ?_
    cases hw'
    obtain ⟨hpaused, hbank, -⟩ := h.sweep w hw
    refine ⟨?_, (w.note_bank _).trans_le hbank, hstep⟩
    rw [hjudged.panel, ← hpaused, hrun]
    exact ⟨fun he => (nomatch he), fun he => (nomatch he)⟩
  · have completed := (h.stand hjudged).withSweep (sweep := none) fun _ hn => nomatch hn
    unfold State.completeSweep
    dsimp only
    split <;> exact completed.stand (.same rfl)

theorem takeDwellEnd_lampsKept (s : State) (currents : BitVec 256) :
    LampsKept s (s.takeDwellEnd currents) := by
  unfold State.takeDwellEnd
  split
  next w hw =>
    cases hrun : w.run with
    | running ends =>
      exact .trans (t := s.advanceTo (1000 * ends)) (.same rfl rfl) 
        (endDwell_lampsKept (s.advanceTo (1000 * ends)) hw hrun currents)
    | paused => exact .refl s
  next => exact .refl s

/-! ### HOLD (R96 to R98) -/

theorem PanelAgrees.beginHold {s : State} (h : PanelAgrees s) (limit : Nat) :
    PanelAgrees (s.beginHold limit) where
  __ := h
  mismatch c hc := by simpa [State.beginHold] using h.mismatch c hc
  held c hc := by simp [State.beginHold]

theorem PanelAgrees.endHold {s : State} (h : PanelAgrees s) : PanelAgrees s.endHold where
  __ := h
  mismatch c hc := by simpa [State.endHold] using h.mismatch c hc
  held c hc := by simp [State.endHold]

theorem endHoldWith_lampsKept (s : State) (cause : HoldEnd) : LampsKept s (s.endHoldWith cause) :=
  .settling fun h => PanelAgrees.stand h.endHold (.same rfl)

theorem takeHoldExpiry_lampsKept (s : State) : LampsKept s s.takeHoldExpiry := by
  unfold State.takeHoldExpiry
  split
  next t _ => exact .trans (t := s.advanceTo (1000 * t)) (.same rfl rfl) (endHoldWith_lampsKept _ _)
  next => exact .refl s

theorem takeHold_lampsKept (b : List Byte) (s : State) : LampsKept s (takeHold b s).state := by
  unfold takeHold State.holdOff State.holdOn
  repeat' split
  · exact endHoldWith_lampsKept s _
  · exact .refl s
  · exact .refl s
  next hhold =>
    refine .same ?_ ?_
    · simp only [State.panelSide, Answer.ok, hhold, Option.isSome_some]
    · simp only [State.driveSide, State.assigned, Answer.ok, hhold, Option.isSome_some]
  · exact .settling fun h => h.beginHold _
  · exact .refl s

/-! ### Overrides (R94) -/

theorem takeLampOverride_lampsKept (b : List Byte) (s : State) :
    LampsKept s (takeLampOverride b s).state := by
  unfold takeLampOverride
  dsimp only
  repeat' split
  · exact .refl s
  · exact .refl s
  · exact .refl s
  · exact (mapChannels_panelStands s (fun c ch => by split <;> rfl) fun c ch hrun => by
      split <;> exact hrun).settled

/-! ### The tables (R12 to R17, R22) -/

theorem bind_panelStands (s : State) (e : PointEntry) : PanelStands s (s.bind e) :=
  mapChannels_panelStands s (fun c ch => by repeat' split
                                            all_goals rfl) fun c ch hrun => by
    repeat' split
    all_goals exact hrun

theorem loadEntry_lampsKept (s : State) (e : PointEntry) : LampsKept s (s.loadEntry e) := by
  unfold State.loadEntry
  split
  next old _ =>
    exact (((PanelStands.of_alarmSide (retire_alarmSide s old)).trans (.same (by rfl))).trans
      (bind_panelStands _ e)).settled
  next =>
    rw [insertEntry_eq]
    exact (PanelStands.trans (.same (by rfl)) (bind_panelStands _ e)).settled

theorem dropEntry_lampsKept (s : State) (e : PointEntry) : LampsKept s (s.dropEntry e) := by
  have unbound (u : State) : PanelStands u (u.unbind e.key) :=
    mapChannels_panelStands u (fun c ch => by split <;> rfl) fun c ch hrun => by split <;> exact hrun
  exact (((PanelStands.of_alarmSide (retire_alarmSide s e)).trans (unbound _)).trans (.same (by rfl))).settled

theorem clearTable_lampsKept (s : State) : LampsKept s s.clearTable := by
  have cleared : PanelStands s
      (State.clearHolders { s with points := [], outstations := [] }).unbindAll :=
    .trans (.same (by rfl)) (mapChannels_panelStands _ (fun _ _ => by rfl) fun _ _ => id)
  exact (cleared.trans (.same (by rfl))).settled

/-! ### Acknowledgement (R77) -/

theorem acknowledgeAll_lampsKept (s : State) (scope : PointEntry → Bool) :
    LampsKept s (s.acknowledgeAll scope) :=
  (PanelStands.of_alarmSide (acknowledgeKeys_alarmSide _ s)).settled

theorem takeAckPoint_lampsKept (b : List Byte) (s : State) : LampsKept s (takeAckPoint b s).state := by
  unfold takeAckPoint
  repeat' split
  all_goals first
    | exact .refl s | exact (PanelStands.of_alarmSide (acknowledge_alarmSide s _)).settled

/-! ### Telemetry and outstations (R24 to R31, R49 to R54) -/

theorem qualityReturn_panelStands (s before : State) (scope : PointEntry → Bool) :
    PanelStands s (s.qualityReturn before scope) :=
  .of_alarmSide (qualityReturn_alarmSide s before scope)

theorem takeValid_panelStands (s : State) (k : Key) (raw : Nat) : PanelStands s (s.takeValid k raw) := by
  unfold State.takeValid
  dsimp only
  repeat' split
  · exact .trans (.same rfl) (.of_alarmSide (evaluatePoint_alarmSide _ k))
  · exact .same rfl
  · exact .same rfl

theorem takeItem_panelStands (s : State) (i : Item) : PanelStands s (s.takeItem i) := by
  unfold State.takeItem
  split
  · exact .same rfl
  split
  · exact .same rfl
  next o _ =>
    have refreshed : PanelStands s (s.refreshOutstation o ⟨i.outstation, i.index⟩) := by
      rw [refreshOutstation_frame]
      exact .same rfl
    dsimp only
    repeat' split
    · exact refreshed.trans (.same rfl)
    · exact refreshed.trans (.same rfl)
    · exact refreshed.trans (takeValid_panelStands _ _ _)

theorem takePoints_lampsKept (s : State) (body : List Byte) : LampsKept s (s.takePoints body) :=
  (PanelStands.foldl takeItem_panelStands _ s).settled

theorem takeOutstation_lampsKept (s : State) (body : List Byte) : LampsKept s (s.takeOutstation body) := by
  unfold State.takeOutstation
  dsimp only
  repeat' split
  · exact .refl s
  · exact (PanelStands.trans (.same (by rfl)) (qualityReturn_panelStands _ s _)).settled
  · exact (PanelStands.same (by rfl)).settled
  · exact .refl s

theorem setStaleLimit_lampsKept (s : State) (limit : Nat) : LampsKept s (s.setStaleLimit limit) :=
  (PanelStands.trans (.same (by rfl)) (qualityReturn_panelStands _ s _)).settled

/-! ### Markers and supervision (R116 to R125) -/

theorem judgeMarker_panelStands (s arrival : State) (sync : Bool) :
    PanelStands s (s.judgeMarker arrival sync) := by
  unfold State.judgeMarker
  dsimp only
  repeat' split
  · exact .same rfl
  · exact .trans (.same (by rfl)) (qualityReturn_panelStands _ arrival _)
  all_goals exact .same rfl

theorem takeCycle_lampsKept (s : State) (body : List Byte) : LampsKept s (s.takeCycle body) := by
  unfold State.takeCycle State.acceptMarker
  refine .ite (fun _ => PanelStands.settled ?_) fun _ => .refl s
  have hmarked : PanelStands s { s with supervisor := s.supervisor.record (field16 body 0) s.now } := .same rfl
  have hcounted (u : State) : PanelStands u u.countSilence := by
    rw [countSilence_eq]
    exact .same rfl
  exact ((hmarked.trans (.of_alarmSide (advanceTravels_alarmSide _ s))).trans (hcounted _)).trans
    (judgeMarker_panelStands _ s _)

theorem takeTelemetry_lampsKept (s : State) (f : Frame) : LampsKept s (s.takeTelemetry f) :=
  .ite (fun _ => takeCycle_lampsKept s _) fun _ =>
    .ite (fun _ => takePoints_lampsKept s _) fun _ => takeOutstation_lampsKept s _

theorem Supervisor.miss_state (v : Supervisor) : v.miss.state = v.state ∨ v.miss.state = .lost := by
  unfold Supervisor.miss
  repeat' split
  · exact .inl rfl
  · exact .inl rfl
  · exact .inr rfl

theorem lateBoundExpires_lampsKept (s : State) (reference : Nat) :
    LampsKept s (s.lateBoundExpires reference) := by
  unfold State.lateBoundExpires
  dsimp only
  split
  next hstep =>
    refine .ite (fun _ => (PanelStands.same (by rfl)).settled) fun hlost => .same rfl ?_
    have hstate := (Supervisor.miss_state _).resolve_right hlost
    simp only [State.driveSide, State.assigned, hstate]
  next => exact .same rfl rfl

theorem takeLateBound_lampsKept (s : State) : LampsKept s s.takeLateBound := by
  unfold State.takeLateBound
  split
  · exact .refl s
  · exact .refl s
  · exact .trans (t := s.advanceTo _) (.same rfl rfl) (lateBoundExpires_lampsKept _ _)

theorem resync_lampsKept (s : State) : LampsKept s s.resync := by
  have h : PanelStands s (State.realign { s with supervisor := s.supervisor.unsync }) := .same rfl
  exact (PanelStands.ite (h.trans (qualityReturn_panelStands _ s _)) h).settled

/-! ### RESTART and reset (R113, R150, R181, R184) -/

theorem restart_lawful {l : Line} (h : LineLawful l) (now : Nat) : LineLawful (l.restart now) := by
  unfold Line.restart
  split
  next hin => exact ⟨h.group, fun ho => (nomatch hin.symm.trans ho), fun _ _ => rfl⟩
  next => exact h

/-- At RESTART every INPUT line settles, so none of them holds lamp test (R150). -/
theorem restart_holdsLampTest (l : Line) (now : Nat) : (l.restart now).holdsLampTest = false := by
  unfold Line.restart
  cases hd : l.direction <;> simp [Line.holdsLampTest, Line.inputActive, hd]

theorem PanelAgrees.restartBlocks {s : State} (h : PanelAgrees s) : PanelAgrees s.restartBlocks := by
  rw [panelAgrees_iff] at h ⊢
  obtain ⟨hs, -⟩ := h
  have hchannel (c : Nat) (hc : c < 256) : s.restartBlocks.lamps.channels[c].mismatch = 0 ∧
      s.restartBlocks.lamps.channels[c].held = none :=
    ⟨congrArg Channel.mismatch (restartBlocks_kept s c hc), congrArg Channel.held (restartBlocks_kept s c hc)⟩
  have hline (i : Fin 8) : s.restartBlocks.line i = (s.line i).restart s.now :=
    Table.mapIdx_getElem _ _ _ i.isLt
  refine ⟨⟨fun c hc => ?_, fun c hc => ?_, hs.debounce, fun i => ?_, fun _ hw => (nomatch hw)⟩, ?_,
    fun _ hw => (nomatch hw)⟩
  · rw [(hchannel c hc).1]; exact Nat.zero_le 2
  · rw [(hchannel c hc).2]; rfl
  · rw [hline]; exact restart_lawful (hs.lines i) _
  · refine (Bool.eq_false_iff.2 fun hheld => ?_).symm
    obtain ⟨i, hi⟩ := (lampTestHeld_iff_line _).1 hheld
    rw [hline, restart_holdsLampTest] at hi
    exact Bool.false_ne_true hi

theorem restartAll_lampsKept (s : State) : LampsKept s s.restartAll := by
  have h : LampsKept s s.restartBlocks := ⟨fun _ => settleLamps_settled _, PanelAgrees.restartBlocks⟩
  refine h.trans ?_
  rw [restartAll_eq]
  exact .same rfl rfl

/-- After a reset every channel is DARK with no source, as R89 and R112 give it. -/
theorem lampsSettled_hardwareReset (s : State) (source : ResetSource) (straps : BitVec 6) :
    LampsSettled (s.hardwareReset source straps) := by
  intro c hc
  have hchannel : (s.hardwareReset source straps).lamps.channels[c] = Channel.reset :=
    Vector.getElem_replicate hc
  rw [hchannel]
  unfold State.drive
  split <;> rfl

theorem panelAgrees_hardwareReset (s : State) (source : ResetSource) (straps : BitVec 6) :
    PanelAgrees (s.hardwareReset source straps) := by
  have hchannel (c : Nat) (hc : c < 256) :
      (s.hardwareReset source straps).lamps.channels[c] = Channel.reset := Vector.getElem_replicate hc
  have hdebounce : 10 ≤ 50 ∧ 50 ≤ 250 ∧ 50 % 10 = 0 := by decide
  rw [panelAgrees_iff]
  refine ⟨⟨fun c hc => ?_, fun c hc => ?_, hdebounce, fun i => ?_,
    fun _ hw => (nomatch hw)⟩, ?_, fun _ hw => (nomatch hw)⟩
  · rw [hchannel c hc]; exact Nat.zero_le 2
  · rw [hchannel c hc]; rfl
  · rw [hardwareReset_line]
    exact ⟨rfl, fun ho => (nomatch ho), fun _ _ => rfl⟩
  · refine (Bool.eq_false_iff.2 fun hheld => ?_).symm
    obtain ⟨i, hi⟩ := (lampTestHeld_iff_line _).1 hheld
    rw [hardwareReset_line] at hi
    exact Bool.false_ne_true hi

end Sys2Proof.Machine
end

section
/-! The lamps, the lines and the sweep in agreement as invariants of every step, and the reset state. -/

namespace Sys2Proof.Machine

/-! ### Commands (R172 to R176) -/

/-- An ASSIGNED controller stays ASSIGNED under SET STATION, which is all that R89 reads (R161). -/
theorem takeSetStation_lampsKept (b : List Byte) {s : State} (hassigned : s.assigned = true) :
    LampsKept s (takeSetStation b s).state := by
  unfold takeSetStation
  dsimp only
  split
  · refine .same rfl ?_
    rw [State.driveSide, State.driveSide, hassigned]
    rfl
  · exact .refl s

theorem takeSetTiming_lampsKept (b : List Byte) (s : State) : LampsKept s (takeSetTiming b s).state := by
  unfold takeSetTiming
  split
  · exact .same rfl rfl
  · exact .refl s

theorem takeSetCadence_lampsKept (b : List Byte) (s : State) : LampsKept s (takeSetCadence b s).state := by
  unfold takeSetCadence
  split
  · exact .same rfl rfl
  · exact .refl s

theorem takePointLoad_lampsKept (b : List Byte) (s : State) : LampsKept s (takePointLoad b s).state := by
  unfold takePointLoad
  repeat' split
  · exact .refl s
  · exact .refl s
  · exact loadEntry_lampsKept s _

theorem takePointDrop_lampsKept (b : List Byte) (s : State) : LampsKept s (takePointDrop b s).state := by
  unfold takePointDrop
  split
  · exact .refl s
  · exact dropEntry_lampsKept s _

theorem takePointRead_lampsKept (b : List Byte) (s : State) : LampsKept s (takePointRead b s).state := by
  unfold takePointRead
  split <;> exact .refl s

theorem takeGroupSet_lampsKept (b : List Byte) (s : State) : LampsKept s (takeGroupSet b s).state := by
  unfold takeGroupSet
  dsimp only
  repeat' split
  · exact (PanelStands.same (by rfl)).settled
  · exact .refl s
  · exact .refl s

theorem takeOutstationRead_lampsKept (b : List Byte) (s : State) :
    LampsKept s (takeOutstationRead b s).state := by
  unfold takeOutstationRead
  split <;> exact .refl s

theorem takeAckGroup_lampsKept (b : List Byte) (s : State) : LampsKept s (takeAckGroup b s).state := by
  unfold takeAckGroup
  dsimp only
  split
  · exact acknowledgeAll_lampsKept s _
  · exact .refl s

theorem takeHornSet_lampsKept (b : List Byte) (s : State) : LampsKept s (takeHornSet b s).state := by
  unfold takeHornSet
  split
  · exact .same rfl rfl
  · exact .refl s

theorem takeLampRead_lampsKept (b : List Byte) (s : State) : LampsKept s (takeLampRead b s).state := by
  unfold takeLampRead
  split <;> exact .refl s

theorem takeClearLampFaults_lampsKept (b : List Byte) (s : State) :
    LampsKept s (takeClearLampFaults b s).state := by
  unfold takeClearLampFaults
  dsimp only
  split
  · exact clearFaults_lampsKept s _
  · exact .refl s

theorem occur_lampsKept (s : State) (c : Condition) : LampsKept s (s.occur c) := .same rfl rfl

theorem raiseConditions_lampsKept (s : State) (set : Byte) : LampsKept s (s.raiseConditions set) :=
  .foldl (fun u _ => .ite (fun _ => occur_lampsKept u _) fun _ => .refl u) _ s

theorem clearConditions_lampsKept (s : State) (set : Byte) : LampsKept s (s.clearConditions set) :=
  .trans (t := { s with reports := s.reports.clear set }) (.same rfl rfl)
    (.foldl (fun u _ => .ite (fun _ => occur_lampsKept u _) fun _ => .refl u) _ _)

theorem command_lampsKept {code : Byte} {rule : CommandRule} (hc : commandRule code = some rule)
    (tag : Byte) (params : List Byte) {s : State} (hassigned : s.assigned = true) :
    LampsKept s (rule.run tag params s).state := by
  unfold commandRule at hc
  split at hc <;> cases hc
  · exact .refl s
  · exact takeSetStation_lampsKept params hassigned
  · exact restartAll_lampsKept s
  · exact takeSetTiming_lampsKept params s
  · exact resync_lampsKept s
  · exact takeSetCadence_lampsKept params s
  · exact takePointLoad_lampsKept params s
  · exact takePointDrop_lampsKept params s
  · exact takePointRead_lampsKept params s
  · exact clearTable_lampsKept s
  · exact .refl s
  · exact takeGroupSet_lampsKept params s
  · exact takeOutstationRead_lampsKept params s
  · exact setStaleLimit_lampsKept s _
  · exact takeAckPoint_lampsKept params s
  · exact takeAckGroup_lampsKept params s
  · exact acknowledgeAll_lampsKept s _
  · exact .same rfl rfl
  · exact takeHornSet_lampsKept params s
  · exact takeLampOverride_lampsKept params s
  · exact takeLampRead_lampsKept params s
  · exact takeHold_lampsKept params s
  · exact takeProve_lampsKept tag params s
  · exact takeClearLampFaults_lampsKept params s
  · exact takeLineSet_lampsKept params s
  · exact writeLatches_lampsKept s _ _
  · exact .refl s
  · exact clearConditions_lampsKept s _
  · exact raiseConditions_lampsKept s _
  · exact .same rfl rfl

theorem settle_lampsKept (a : Answer) (station tag code : Byte) :
    LampsKept a.state (a.settle station tag code) := by
  unfold Answer.settle
  split
  · exact .same rfl rfl
  · exact .refl _

theorem takeAddressed_lampsKept {s : State} (hassigned : s.assigned = true) (station tag code : Byte)
    (params : List Byte) : LampsKept s (s.takeAddressed station tag code params) := by
  have executed : LampsKept s (s.execute tag code params).state := by
    unfold State.execute
    repeat' split
    · exact .refl s
    next hc _ => exact command_lampsKept hc tag params hassigned
    · exact .refl s
  exact .ite (fun _ => executed.trans (settle_lampsKept _ _ _ _)) fun _ => .same rfl rfl

theorem takeBroadcast_lampsKept {s : State} (hassigned : s.assigned = true) (tag code : Byte)
    (params : List Byte) : LampsKept s (s.takeBroadcast tag code params) := by
  unfold State.takeBroadcast
  repeat' split
  · exact .refl s
  next hc _ => exact command_lampsKept hc tag params hassigned
  · exact .refl s

/-! ### The Loop Port -/

theorem forward_lampsKept (s : State) (f : Frame) : LampsKept s (s.forward f) :=
  .ite (fun _ => .same rfl rfl) fun _ => .ite (fun _ => .same rfl rfl) fun _ => .refl s

theorem frameError_lampsKept (s : State) : LampsKept s s.frameError := by
  unfold State.frameError State.countFrameError
  dsimp only
  repeat' split
  all_goals exact .same rfl rfl

theorem granted_lampsKept (s : State) : LampsKept s s.granted := by
  rw [granted_frame]
  exact .same rfl rfl

theorem arrive_lampsKept (s : State) (f : Frame) : LampsKept s (s.arrive f) := by
  have hreceived : LampsKept s s.received := .same rfl rfl
  have hforwarded := hreceived.trans (forward_lampsKept s.received f)
  unfold State.arrive
  split
  next station hs =>
    have hassigned : s.received.assigned = true := Option.isSome_iff_exists.2 ⟨station, hs⟩
    have hassigned' : (s.received.forward f).assigned = true := by
      rwa [State.assigned, forward_station]
    unfold State.forwardingDecision State.takeAddressedBody State.takeBroadcastBody
    repeat' split
    · exact .same rfl rfl
    · exact hforwarded.trans (takeTelemetry_lampsKept _ f)
    · exact .trans (t := s.received.countForeign) (.same rfl rfl) (forward_lampsKept _ f)
    · exact hreceived.trans (takeAddressed_lampsKept hassigned _ _ _ _)
    · exact hreceived
    · exact hforwarded.trans (takeBroadcast_lampsKept hassigned' _ _ _)
    all_goals exact hforwarded
  next => exact hforwarded

/-! ### Own events and the step -/

theorem ownEvent_lampsKept (s : State) (e : OwnEvent) (currents : BitVec 256) :
    LampsKept s (e.take currents s) := by
  refine (granted_lampsKept s).trans ?_
  cases e with
  | grant => exact .refl _
  | started =>
    change LampsKept _ s.granted.takeStarted
    unfold State.takeStarted
    split <;> exact .same rfl rfl
  | gap =>
    change LampsKept _ s.granted.takeTruncated
    unfold State.takeTruncated
    split
    next t _ => exact .trans (t := s.granted.advanceTo t) (.same rfl rfl) (frameError_lampsKept _)
    next => exact .refl _
  | sent =>
    change LampsKept _ s.granted.takeTransmissionEnd
    unfold State.takeTransmissionEnd
    split <;> exact .same rfl rfl
  | lateBound => exact takeLateBound_lampsKept _
  | dwell => exact takeDwellEnd_lampsKept _ _
  | hold => exact takeHoldExpiry_lampsKept _
  | phase c => exact takePhaseEnd_lampsKept _ _ _
  | debounce i => exact takeDebounce_lampsKept _ i
  | sense => exact takeSenseTimer_lampsKept _ _

theorem pinChange_lampsKept (s : State) (i : Fin 8) (level : PinLevel) (now : Nat) :
    LampsKept s (s.modifyLine i (·.pinBecomes level now)) :=
  modifyLine_lampsKept s (fun h => pinBecomes_lawful h level now) (pinBecomes_holdsLampTest level now)

/-- An invariant that a reset gives and every change of `LampsKept` keeps, the rows keep. -/
theorem keptByRows_of_lampsKept {Inv : State → Prop}
    (hreset : ∀ (s : State) (source : ResetSource) (straps : BitVec 6), Inv (s.hardwareReset source straps))
    (hkept : ∀ {s t : State}, LampsKept s t → Inv s → Inv t) : KeptByRows Inv where
  hardwareReset := hreset
  arrive s f := hkept (arrive_lampsKept s f)
  frameError s := hkept (frameError_lampsKept s)
  ownEvent s e currents := hkept (ownEvent_lampsKept s e currents)
  pinChange s i level now := hkept (pinChange_lampsKept s i level now)
  withReceiver _ _ := hkept (.same rfl rfl)
  advanceTo _ _ := hkept (.same rfl rfl)
  drawCurrents _ := hkept (.same rfl rfl)
  withPending _ _ := hkept (.same rfl rfl)

theorem lampsSettled_kept : KeptByRows LampsSettled :=
  keptByRows_of_lampsKept lampsSettled_hardwareReset LampsKept.settled

theorem panelAgrees_kept : KeptByRows PanelAgrees :=
  keptByRows_of_lampsKept panelAgrees_hardwareReset LampsKept.agrees

/-- Settles O60: every row keeps the lamps settled and the panel in agreement. -/
theorem everyStepKeepsTheLampsAndLinesInAgreement :
    Obligations.EveryStepKeepsTheLampsAndLinesInAgreement :=
  fun _ _ => ⟨lampsSettled_kept.step, panelAgrees_kept.step⟩

/-! ### The reset state (R184) -/

/-- The reset state is the one a power-up with the straps at 1 gives. -/
theorem reset_eq_hardwareReset : State.reset = State.reset.hardwareReset .detector 1 := rfl

/-- Settles O3: each law is one that a hardware reset gives. -/
theorem resetStateIsLawful : Obligations.ResetStateIsLawful := by
  unfold Obligations.ResetStateIsLawful
  rw [reset_eq_hardwareReset]
  have htables := tablesInOrder_kept.hardwareReset State.reset .detector 1
  exact ⟨queuesFit_hardwareReset _ _ _, htables, alarmsAgree_hardwareReset _ _ _,
    timeLawful_hardwareReset _ _ _, panelAgrees_hardwareReset _ _ _, lampsSettled_hardwareReset _ _ _,
    passOnlyIsQuiet_hardwareReset _ _ _⟩

end Sys2Proof.Machine
end

section
/-! The commands of the lamp channels: LAMP OVERRIDE (R94), HOLD (R96, R98), PROVE (R105) and CLEAR LAMP
FAULTS (R104). -/

namespace Sys2Proof.Machine

/-! ### LAMP OVERRIDE (R94) -/

theorem overrideField_eq_some {n : Nat} {l : Option Level} : overrideField n = some l ↔ overrideCode l = n := by
  constructor
  · intro h
    unfold overrideField at h
    split at h
    next h0 => cases h; exact h0.symm
    next =>
      obtain ⟨level, hlevel, rfl⟩ := Option.map_eq_some_iff.1 h
      unfold levelOfCode at hlevel
      split at hlevel <;> cases hlevel <;> rfl
  · rintro rfl
    cases l with
    | none => rfl
    | some level =>
      cases level with
      | dark => rfl
      | steady => rfl
      | flash c => cases c <;> rfl

theorem overrideCode_le (l : Option Level) : overrideCode l ≤ 7 := by
  cases l with
  | none => decide
  | some level =>
    cases level with
    | dark => decide
    | steady => decide
    | flash c => cases c <;> decide

theorem overrideField_eq_none {n : Nat} : overrideField n = none ↔ 7 < n := by
  constructor
  · intro h
    by_contra hle
    have hall : ∀ m ≤ 7, overrideField m ≠ none := by decide
    exact hall n (Nat.le_of_not_lt hle) h
  · intro h
    rw [Option.eq_none_iff_forall_ne_some]
    intro l hl
    have := overrideCode_le l
    rw [overrideField_eq_some.1 hl] at this
    omega

/-- LAMP OVERRIDE by its two checks (R94). -/
theorem takeLampOverride_cases (b : List Byte) (s : State) :
    (field16 b 1 = 0 ∨ 256 < field16 b 1 ∨ 7 < field8 b 3 → takeLampOverride b s = .refuse s .badParam) ∧
    ∀ l, overrideCode l = field8 b 3 → 1 ≤ field16 b 1 ∧ field16 b 1 ≤ 256 → takeLampOverride b s =
      if 256 < field8 b 0 + field16 b 1 then .refuse s .lampRange
      else .ok (s.setOverrides (field8 b 0) (field16 b 1) l) := by
  constructor
  · intro hbad
    unfold takeLampOverride
    dsimp only
    split
    next => rfl
    next l hl =>
      have hcode := overrideField_eq_none.not.1 (hl ▸ Option.some_ne_none l)
      rw [if_pos (by omega)]
  · intro l hl hcount
    simp only [takeLampOverride, overrideField_eq_some.2 hl, hcount, and_self, not_true_eq_false, if_false]

theorem setOverrides_kept (s : State) (first count : Nat) (l : Option Level) (c : Nat) (hc : c < 256) :
    (s.setOverrides first count l).lamps.channels[c].kept = { s.lamps.channels[c].kept with
      override := if first ≤ c ∧ c < first + count then l else s.lamps.channels[c].override } := by
  unfold State.setOverrides
  rw [settleLamps_kept _ _ hc, mapChannels_channel _ _ _ hc]
  split <;> rfl

/-- Settles O35: the two checks in order, then the run's overrides set. -/
theorem lampOverrideSetsItsRunOfChannels : Obligations.LampOverrideSetsItsRunOfChannels := by
  rintro h b s ha hlen first count rfl rfl
  obtain ⟨refused, checked⟩ := takeLampOverride_cases b s.received
  by_cases hbad : field16 b 1 = 0 ∨ 256 < field16 b 1 ∨ 7 < field8 b 3
  · obtain ⟨t, hexec, hans⟩ := arriveCommand_refused ha (code := 0x50) rfl hlen (refused hbad)
    refine ⟨t, hexec, fun _ => hans, fun _ _ => by omega, fun l hl _ _ => ?_⟩
    have := overrideCode_le l
    omega
  obtain ⟨l, hl⟩ := Option.ne_none_iff_exists'.1 (overrideField_eq_none (n := field8 b 3).not.2 (by omega))
  have hcode := overrideField_eq_some.1 hl
  have hrun := checked l hcode (by omega)
  by_cases hrange : 256 < field8 b 0 + field16 b 1
  · rw [if_pos hrange] at hrun
    obtain ⟨t, hexec, hans⟩ := arriveCommand_refused ha (code := 0x50) rfl hlen hrun
    exact ⟨t, hexec, fun hbad' => absurd hbad' hbad, fun _ _ _ => hans, fun _ _ _ hin => by omega⟩
  · rw [if_neg hrange] at hrun
    refine ⟨(s.received.setOverrides (field8 b 0) (field16 b 1) l).answered h 0x50 [],
      arriveCommand_answered ha (code := 0x50) rfl hlen hrun, fun hbad' => absurd hbad' hbad,
      fun _ _ hrange' => absurd hrange' hrange, fun l' hl' _ _ => ?_⟩
    obtain rfl : l = l' := Option.some.inj (hl.symm.trans (overrideField_eq_some.2 hl'))
    exact ⟨rfl, heard_of_received ha rfl, answered_oneReply rfl, rfl,
      (settleLamps_settled _).withCommands _, fun c hc => setOverrides_kept s.received _ _ l c hc⟩

/-! ### HOLD (R96, R98) -/

theorem beginHold_kept (s : State) (limit c : Nat) (hc : c < 256) :
    (s.beginHold limit).settleLamps.lamps.channels[c].kept =
      { s.lamps.channels[c].kept with held := some (s.lowerLevel c s.lamps.channels[c]).1 } := by
  rw [settleLamps_kept _ _ hc]
  simp only [State.beginHold, Table.mapIdx_getElem]
  rfl

/-- HOLD ON with mode 1 (R96): BUSY during a sweep, otherwise renewed or begun. -/
theorem takeHold_on {b : List Byte} (hmode : field8 b 0 = 1) (s : State) : takeHold b s =
    if s.lamps.sweep.isSome then .refuse s .busy
    else if s.lamps.holdEnds.isSome then .ok { s with lamps := { s.lamps with
      holdEnds := some (s.now + 1000 * clamp 10 600 (field16 b 1)) } }
    else .ok (s.beginHold (clamp 10 600 (field16 b 1))).settleLamps := by
  simp only [takeHold, hmode, State.holdOn]

/-- A mode that is neither OFF nor ON (R96). -/
theorem takeHold_refused {b : List Byte} (hmode : 1 < field8 b 0) (s : State) :
    takeHold b s = .refuse s .badParam := by
  unfold takeHold
  split
  · omega
  · omega
  · rfl

/-- Settles O37: the mode's check, then the three cases of HOLD ON. -/
theorem holdOnFreezesThePicture : Obligations.HoldOnFreezesThePicture := by
  intro h b s ha hlen
  by_cases hbad : 1 < field8 b 0
  · obtain ⟨t, hexec, hans⟩ := arriveCommand_refused ha (code := 0x52) rfl hlen
      (takeHold_refused hbad s.received)
    exact ⟨t, hexec, fun _ => hans, fun _ => by omega, fun _ => by omega⟩
  by_cases hmode : field8 b 0 = 1
  case neg => exact ⟨_, arriveCommand_addressed ha 0x52 b, fun hbad' => absurd hbad' hbad,
    fun hmode' => absurd hmode' hmode, fun hmode' => absurd hmode' hmode⟩
  have hrun := takeHold_on hmode s.received
  by_cases hsweep : s.lamps.sweep.isSome = true
  · replace hrun := hrun.trans (if_pos hsweep)
    obtain ⟨t, hexec, hans⟩ := arriveCommand_refused ha (code := 0x52) rfl hlen hrun
    exact ⟨t, hexec, fun hbad' => absurd hbad' hbad, fun _ _ => hans,
      fun _ hnone => by rw [hnone] at hsweep; exact absurd hsweep Bool.false_ne_true⟩
  replace hrun := hrun.trans (if_neg hsweep)
  by_cases hhold : s.lamps.holdEnds.isSome = true
  · replace hrun := hrun.trans (if_pos hhold)
    exact ⟨_, arriveCommand_answered ha (code := 0x52) rfl hlen hrun, fun hbad' => absurd hbad' hbad,
      fun _ hsweep' => absurd hsweep' hsweep, fun _ _ => ⟨rfl, heard_of_received ha rfl,
        answered_oneReply rfl, rfl, fun _ => rfl,
        fun hnone => by rw [hnone] at hhold; exact absurd hhold Bool.false_ne_true⟩⟩
  · replace hrun := hrun.trans (if_neg hhold)
    exact ⟨_, arriveCommand_answered ha (code := 0x52) rfl hlen hrun, fun hbad' => absurd hbad' hbad,
      fun _ hsweep' => absurd hsweep' hsweep, fun _ _ => ⟨rfl, heard_of_received ha rfl,
        answered_oneReply rfl, rfl, fun hhold' => absurd hhold' hhold,
        fun _ => ⟨rfl, (settleLamps_settled _).withCommands _,
          fun c hc => beginHold_kept s.received _ c hc⟩⟩⟩

theorem endHoldWith_kept (s : State) (cause : HoldEnd) (c : Nat) (hc : c < 256) :
    (s.endHoldWith cause).lamps.channels[c].kept = { s.lamps.channels[c].kept with held := none } := by
  unfold State.endHoldWith
  rw [settleLamps_kept _ _ hc]
  change s.endHold.lamps.channels[c].kept = _
  simp only [State.endHold, Table.mapIdx_getElem]
  rfl

theorem endHoldWith_holdEnded (s : State) (cause : HoldEnd) : HoldEnded s (s.endHoldWith cause) :=
  ⟨rfl, settleLamps_settled _, endHoldWith_kept s cause⟩

theorem takeHold_off {b : List Byte} (hmode : field8 b 0 = 0) (s : State) : takeHold b s =
    if s.lamps.holdEnds.isSome then .ok (s.endHoldWith .command) else .ok s := by
  simp only [takeHold, hmode, State.holdOff]

theorem exec_holdExpiry {s : State} (hn : NoGrantDue s) : exec .holdExpiry s = .next s.takeHoldExpiry := by
  rw [show exec .holdExpiry s = .next s.granted.takeHoldExpiry from rfl, granted_of_noGrantDue hn]

/-- Settles O38: HOLD ended with its record, by the timer and by the command. -/
theorem holdEndsByCommandOrExpiry : Obligations.HoldEndsByCommandOrExpiry := by
  intro s hn
  refine ⟨fun hnone => ?_, fun e he => ?_, fun h b ha hlen hmode => ?_⟩
  · rw [exec_holdExpiry hn, State.takeHoldExpiry, hnone]
  · refine ⟨(s.advanceTo (1000 * e)).endHoldWith .expiry, ?_, endHoldWith_holdEnded (s.advanceTo _) _, ?_⟩
    · rw [exec_holdExpiry hn, State.takeHoldExpiry, he]
    · rw [Reports.joined_eq]
      rfl
  have hrun := takeHold_off hmode s.received
  by_cases hhold : s.lamps.holdEnds.isSome = true
  · replace hrun := hrun.trans (if_pos hhold)
    have hended := endHoldWith_holdEnded s.received .command
    refine ⟨_, arriveCommand_answered ha (code := 0x52) rfl hlen hrun,
      fun hnone => by rw [hnone] at hhold; exact absurd hhold Bool.false_ne_true,
      fun _ => ⟨heard_of_received ha rfl, answered_oneReply rfl, ?_, ?_⟩⟩
    · exact ⟨rfl, hended.2.1.withCommands _, hended.2.2⟩
    · rw [Reports.joined_eq]
      rfl
  · replace hrun := hrun.trans (if_neg hhold)
    obtain ⟨t, hexec, hans⟩ := arriveCommand_refused ha (code := 0x52) rfl hlen hrun
    exact ⟨t, hexec, fun _ => hans, fun hhold' => absurd hhold' hhold⟩

/-! ### PROVE (R105) -/

/-- A command of the part, addressed, that is not answered now: the state it leaves. -/
theorem arriveCommand_unanswered {s t : State} {h : CommandHead} (ha : Addressed s h) {code : Byte}
    {params : List Byte} {rule : CommandRule} (hc : commandRule code = some rule)
    (hl : params.length = rule.length) (hr : rule.run h.tag params s.received = ⟨t, none⟩) :
    s.arriveCommand h code params = .next t := by
  rw [arriveCommand_addressed ha, State.execute, hc]
  simp only [hl, if_true, hr]
  rfl

theorem takeProve_eq (tag x : Byte) (s : State) : takeProve tag [x] s =
    if 15 < x.toNat then .refuse s .badParam
    else if s.lamps.sweep.isSome ∨ s.lamps.holdEnds.isSome then .refuse s .busy
    else ⟨(s.beginSweep tag x.toNat).settleLamps, none⟩ := rfl

/-- Settles O39: the bank's check, BUSY, or the sweep begun. -/
theorem proveStartsASweep : Obligations.ProveStartsASweep := by
  intro h x s ha
  have hrun := takeProve_eq h.tag x s.received
  by_cases hbad : 15 < x.toNat
  · rw [if_pos hbad] at hrun
    obtain ⟨t, hexec, hans⟩ := arriveCommand_refused ha (code := 0x53) rfl rfl hrun
    exact ⟨t, hexec, fun _ => hans, fun _ => by omega, fun _ => by omega⟩
  rw [if_neg hbad] at hrun
  by_cases hbusy : s.lamps.sweep.isSome = true ∨ s.lamps.holdEnds.isSome = true
  · replace hrun := hrun.trans (if_pos hbusy)
    obtain ⟨t, hexec, hans⟩ := arriveCommand_refused ha (code := 0x53) rfl rfl hrun
    refine ⟨t, hexec, fun hbad' => absurd hbad' hbad, fun _ _ => hans, fun _ hsweep hhold => ?_⟩
    rw [hsweep, hhold] at hbusy
    exact absurd hbusy (by decide)
  · replace hrun := hrun.trans (if_neg hbusy)
    exact ⟨_, arriveCommand_unanswered ha (code := 0x53) rfl rfl hrun, fun hbad' => absurd hbad' hbad,
      fun _ hbusy' => absurd hbusy' hbusy, fun _ _ _ => ⟨rfl, heard_of_received ha rfl, rfl, rfl,
        settleLamps_settled _, fun c hc => settleLamps_kept _ c hc⟩⟩

/-! ### CLEAR LAMP FAULTS (R104) -/

/-- The entries of a table with their places, read place by place. -/
theorem zipIdx_toList {α : Type} {n : Nat} (v : Vector α n) :
    v.toList.zipIdx = (List.range n).filterMap fun c => v[c]?.map fun x => (x, c) := by
  have hsome : v.toList.zipIdx.map some = (List.range n).map fun c => v[c]?.map fun x => (x, c) := by
    refine List.ext_getElem (by simp) fun i hi _ => ?_
    have hlt : i < n := by simpa using hi
    simp [hlt]
  have hid := congrArg (List.filterMap id) hsome
  simpa [List.filterMap_map] using hid

theorem faultsIn_eq (s : State) (bank : Nat) : s.faultsIn bank = (List.range 256).countP fun c =>
    (bank == 255 || c / 16 == bank) && (s.lamps.channels[c]?).any fun ch => ch.fault.isSome := by
  rw [State.faultsIn, zipIdx_toList, ← List.countP_eq_length_filter, List.countP_filterMap]
  refine List.countP_congr fun c _ => ?_
  cases s.lamps.channels[c]? <;> simp [bankNames]

theorem takeClearLampFaults_eq (x : Byte) (s : State) : takeClearLampFaults [x] s =
    if x.toNat ≤ 15 ∨ x.toNat = 255 then .ok (s.clearFaults x.toNat) (bytes16 (s.faultsIn x.toNat))
    else .refuse s .badParam := rfl

/-- Settles O41: the bank value's check, then its channels cleared and counted. -/
theorem clearLampFaultsClearsItsBanks : Obligations.ClearLampFaultsClearsItsBanks := by
  intro h x s ha
  have hrun := takeClearLampFaults_eq x s.received
  by_cases hbank : x.toNat ≤ 15 ∨ x.toNat = 255
  · rw [if_pos hbank, faultsIn_eq] at hrun
    refine ⟨_, arriveCommand_answered ha (code := 0x54) rfl rfl hrun, fun _ _ => by omega,
      fun _ => ⟨rfl, heard_of_received ha rfl, rfl, fun c hc => ?_, answered_oneReply rfl⟩⟩
    refine (mapChannels_channel s.received _ c hc).trans ?_
    simp only [bankNames, Bool.or_eq_true, beq_iff_eq]
    rfl
  · rw [if_neg hbank] at hrun
    obtain ⟨t, hexec, hans⟩ := arriveCommand_refused ha (code := 0x54) rfl rfl hrun
    exact ⟨t, hexec, fun _ _ => hans, fun hbank' => absurd hbank' hbank⟩

end Sys2Proof.Machine
end

section
/-! What a point composes for its lamps (R91, R92), and which source drives a channel and lights its lamp (R88,
R89). -/

namespace Sys2Proof.Machine

/-! ### The value display (R91) -/

theorem display_binary {e : PointEntry} {inverted normal one : Bool} (hc : e.cls = .binary inverted normal)
    (hd : e.decoded = some (.state one)) (k : Nat) :
    e.display k = if one = inverted then .dark else .steady := by
  rw [PointEntry.display, hc, hd]
  cases one <;> cases inverted <;> rfl

/-- What lamp k of a DOUBLE point shows in a position (R91). -/
def Position.display (k : Nat) : Position → Level
  | .opened => if k = 0 then .steady else .dark
  | .closed => if k = 0 then .dark else .steady
  | .travel => .flash .motion
  | .disagree => .steady

theorem display_double {e : PointEntry} {limit : Nat} {da : Bool} {p : Position} (hc : e.cls = .double limit da)
    (hd : e.decoded = some (.position p)) {k : Nat} (hk : k < 2) : e.display k = p.display k := by
  rw [PointEntry.display, hc, hd]
  obtain rfl | rfl : k = 0 ∨ k = 1 := by omega
  all_goals cases p <;> rfl

/-- What lamp k of an ANALOGUE point shows at a lit count (R91). -/
def ColumnMode.display (lit k : Nat) : ColumnMode → Level
  | .bar => if k < lit then .steady else .dark
  | .dot => if 1 ≤ lit ∧ k = lit - 1 then .steady else .dark

theorem display_analogue {e : PointEntry} {mode : ColumnMode} {q : AnalogueParams} {f n : Nat}
    (hc : e.cls = .analogue mode q) (hd : e.decoded = some (.level f n)) (k : Nat) :
    e.display k = mode.display n k := by
  rw [PointEntry.display, hc, hd]
  cases mode with
  | bar => rfl
  | dot => exact if_congr (by omega) rfl rfl

theorem display_undecoded {e : PointEntry} (hd : e.decoded = none) (k : Nat) : e.display k = .dark := by
  rw [PointEntry.display, hd]
  cases e.cls with
  | binary _ _ => rfl
  | double _ _ => rfl
  | analogue mode _ => cases mode <;> rfl

/-! ### Cadences on the lamps of a point (R92) -/

/-- A lamp that a cadence of R92 is shown on: one lit in the value display, or the first where none is. -/
def PointEntry.ShownOn (e : PointEntry) (k : Nat) : Prop :=
  e.display k ≠ .dark ∨ (k = 0 ∧ ∀ j, j < e.span → e.display j = .dark)

theorem anyLit_eq_false (e : PointEntry) : e.anyLit = false ↔ ∀ j, j < e.span → e.display j = .dark := by
  simp [PointEntry.anyLit]

theorem showOnLit_of_shownOn {e : PointEntry} {k : Nat} (h : e.ShownOn k) (c : Cadence) :
    e.showOnLit c k = .flash c := by
  rw [PointEntry.showOnLit, if_pos]
  rcases h with hlit | ⟨rfl, hnone⟩
  · simp [hlit]
  · simp [(anyLit_eq_false e).2 hnone]

theorem showOnLit_of_not_shownOn {e : PointEntry} {k : Nat} (h : ¬ e.ShownOn k) (c : Cadence) :
    e.showOnLit c k = .dark := by
  rw [PointEntry.showOnLit, if_neg]
  rw [PointEntry.ShownOn, not_or, not_not, ← anyLit_eq_false] at h
  obtain ⟨hdark, hfirst⟩ := h
  simpa [hdark, and_comm] using hfirst

theorem showAlarm_double {e : PointEntry} {limit : Nat} {da : Bool} (hc : e.cls = .double limit da) (c : Cadence)
    (k : Nat) : e.showAlarm c k = .flash c := by
  rw [PointEntry.showAlarm, hc]

theorem showAlarm_other {e : PointEntry} (hc : ∀ limit da, e.cls ≠ .double limit da) (c : Cadence) (k : Nat) :
    e.showAlarm c k = e.showOnLit c k := by
  unfold PointEntry.showAlarm
  split
  next limit da h => exact absurd h (hc limit da)
  next => rfl

/-! ### The steps of R92 -/

/-- The cadence of an unacknowledged alarm state: RETURN, FIRST for the first-up holder, ALERT (R92). -/
theorem compose_alarm {s : State} {e : PointEntry} {c : Cadence} (hq : s.quality e ≠ .never)
    (hc : (e.alarmState = .rtnUnack ∧ c = .ret) ∨
      (e.alarmState = .unack ∧ c = if s.isHolder e then .first else .alert)) (k : Nat) :
    s.compose e k = e.showAlarm c k := by
  rw [State.compose, if_neg hq]
  rcases hc with ⟨ha, rfl⟩ | ⟨ha, rfl⟩ <;> rw [ha]

theorem compose_quiet {s : State} {e : PointEntry} (hq : s.quality e ≠ .never)
    (ha : e.alarmState = .normal ∨ e.alarmState = .acked) (k : Nat) :
    s.compose e k = if s.quality e = .good then e.display k else e.showUntrusted k := by
  rw [State.compose, if_neg hq]
  rcases ha with ha | ha <;> rw [ha]

/-- A lamp neither lit nor the first of an unlit point shows no cadence. -/
theorem not_shownOn {e : PointEntry} {lit : Nat → Prop} (hlit : ∀ j, lit j ↔ e.display j ≠ .dark) {k : Nat}
    (hdark : ¬ lit k) (hother : k ≠ 0 ∨ ∃ j, j < e.span ∧ lit j) : ¬ e.ShownOn k := by
  rintro (hk | ⟨rfl, hnone⟩)
  · exact hdark ((hlit k).2 hk)
  · obtain ⟨j, hj, hjlit⟩ := hother.resolve_left (not_not.2 rfl)
    exact (hlit j).1 hjlit (hnone j hj)

theorem shownOn_of_lit {e : PointEntry} {lit : Nat → Prop} (hlit : ∀ j, lit j ↔ e.display j ≠ .dark) {k : Nat}
    (h : lit k ∨ (k = 0 ∧ ∀ j, j < e.span → ¬ lit j)) : e.ShownOn k :=
  h.imp (hlit k).1 fun ⟨hk, hnone⟩ => ⟨hk, fun j hj => not_not.1 ((hlit j).not.1 (hnone j hj))⟩

/-- Settles O54: the value display by class, then the steps of R92. -/
theorem lampsComposeTheirPoint : Obligations.LampsComposeTheirPoint := by
  intro s e k lit first hk hfirst hlit
  have hholder : s.isHolder e = first := Bool.eq_iff_iff.2 (isHolder_iff.trans hfirst.symm)
  refine ⟨fun _ _ _ hc hd => display_binary hc hd k,
    fun _ _ _ hc hspan hd => display_double hc hd (hspan ▸ hk),
    fun _ _ _ _ hc hd => display_analogue hc hd k, fun hd => display_undecoded hd k,
    fun hq => by rw [State.compose, if_pos hq], fun c hq hc => ?_, fun hq ha => ?_⟩
  · have hcompose := compose_alarm hq (hholder ▸ hc) k
    refine ⟨fun ⟨_, _, hcls⟩ => hcompose.trans (showAlarm_double hcls c k), fun hcls => ⟨fun hon => ?_,
      fun hdark hother => ?_⟩⟩ <;> rw [hcompose, showAlarm_other hcls]
    · exact showOnLit_of_shownOn (shownOn_of_lit hlit hon) c
    · exact showOnLit_of_not_shownOn (not_shownOn hlit hdark hother) c
  · have hcompose := compose_quiet hq ha k
    refine ⟨fun htrusted => ?_, fun hbad hpolicy => ?_, fun hbad hpolicy => ⟨fun hon => ?_,
      fun hdark hother => ?_⟩⟩ <;> rw [hcompose]
    · split
      · rfl
      next hbad => rw [PointEntry.showUntrusted, htrusted.resolve_left hbad]
    all_goals rw [if_neg hbad, PointEntry.showUntrusted, hpolicy]
    · exact showOnLit_of_shownOn (shownOn_of_lit hlit hon) _
    · exact showOnLit_of_not_shownOn (not_shownOn hlit hdark hother) _

/-! ### The source of a channel (R89) and its lamp (R88) -/

/-- At an ASSIGNED controller with no lamp test, HOLD comes before the sources below it (R89). -/
theorem drive_of_no_test {s : State} (hn : s.port.station.isSome = true) (ht : s.panel.lampTest = false)
    (c : Nat) (ch : Channel) : s.drive c ch =
      if s.lamps.holdEnds.isSome then (ch.held.getD .dark, .hold) else s.sweepLevel c ch := by
  rw [State.drive, if_neg (Option.isSome_iff_ne_none.1 hn), ht]
  rfl

theorem sweepLevel_running {s : State} {c : Nat} {w : Sweep} {d : Nat} (hw : s.lamps.sweep = some w)
    (hr : w.run = .running d) (hb : c / 16 = w.bank) (ch : Channel) :
    s.sweepLevel c ch = (stepLevel w.step (c % 16), .prove) := by
  obtain ⟨bank, step, run, tag, dark, own⟩ := w
  obtain rfl : run = .running d := hr
  simp only [State.sweepLevel, hw]
  exact if_pos hb

/-- A sweep that is PAUSED or on another bank has no say in a channel (R89, R108). -/
theorem sweepLevel_below {s : State} {c : Nat}
    (hw : ∀ w, s.lamps.sweep = some w → c / 16 ≠ w.bank ∨ w.run = .paused) (ch : Channel) :
    s.sweepLevel c ch = s.lowerLevel c ch := by
  unfold State.sweepLevel
  split
  next hsweep =>
    rw [if_neg]
    exact (hw _ hsweep).resolve_right fun hp => nomatch hp
  next => rfl

/-- Settles O55: the cases of R89 in order, and the lamp by its level. -/
theorem lampsAreDrivenByTheFirstSource : Obligations.LampsAreDrivenByTheFirstSource := by
  intro s c ch
  refine ⟨fun hn => by rw [State.drive, if_pos hn], fun hn ht => ?_, fun hn ht => ⟨fun l hh hl => ?_,
    fun w d hh hw hr hb => ?_, fun hh hw => ?_⟩, fun hd => ?_, fun hd => ?_,
    fun g e hd => ⟨fun hp => ?_, fun hp => ?_⟩, fun g hd hg hstop => ?_⟩
  · rw [State.drive, if_neg (Option.isSome_iff_ne_none.1 hn), if_pos ht]
  · rw [drive_of_no_test hn ht, if_pos hh, hl]
    rfl
  · rw [drive_of_no_test hn ht, hh]
    exact sweepLevel_running hw hr hb ch
  · have hlower : s.drive c ch = s.lowerLevel c ch := by
      rw [drive_of_no_test hn ht, hh]
      exact sweepLevel_below hw ch
    rw [hlower]
    refine ⟨fun l hl => ?_, fun key e ho hb he => ?_, fun ho hb => ?_⟩
    · simp only [State.lowerLevel, hl]
    · simp only [State.lowerLevel, ho, hb, he]
    · simp only [State.lowerLevel, ho, hb]
  · rw [State.lampOn, hd]
  · rw [State.lampOn, hd]
  · simp only [State.lampOn, hd, hp]
  · simp only [State.lampOn, hd, hp]
  · simp only [State.lampOn, hd, hg.stopped.1 hstop]

end Sys2Proof.Machine
end

section
/-! LAMP READ (R111): the records of a bank's channels, six bytes each, and the generators' run states (R200,
11.4.4). -/

namespace Sys2Proof.Machine

/-! ### The bytes of a channel -/

theorem keyBytes_length (k : Option Key) : (keyBytes k).length = 3 := by
  cases k <;> rfl

theorem Channel.bytes_length (ch : Channel) : ch.bytes.length = 6 := by
  rw [Channel.bytes, List.length_append, keyBytes_length]
  rfl

theorem Level.code_lt (l : Level) : l.code < 16 := by
  cases l with
  | dark => decide
  | steady => decide
  | flash c => cases c <;> decide

theorem Source.code_lt (x : Source) : x.code < 16 := by cases x <;> decide

theorem Sensed.code_lt (x : Sensed) : x.code < 16 := by cases x <;> decide

theorem faultCode_lt (f : Option FaultKind) : faultCode f < 16 := by
  cases f with
  | none => decide
  | some kind => cases kind <;> decide

/-- The bytes past the key: levels, source and current, mismatch run and fault. -/
theorem field8_bytes_past_key (ch : Channel) (i : Nat) : field8 ch.bytes (3 + i) =
    field8 [nibbles (overrideCode ch.override) ch.driven.code, nibbles ch.source.code ch.sensed.code,
      nibbles ch.mismatch (faultCode ch.fault)] i := by
  rw [← keyBytes_length ch.binding]
  exact field8_append_right _ _ i

theorem channelBytes_bound {ch : Channel} {k : Key} (h : ch.binding = some k) :
    field16 ch.bytes 0 = k.outstation % 65536 ∧ field8 ch.bytes 2 = k.index % 256 := by
  rw [Channel.bytes, h]
  constructor
  · rw [keyBytes, Key.bytes, List.append_assoc, field16_bytes16]
  · exact byteOf_toNat _

theorem channelBytes_unbound {ch : Channel} (h : ch.binding = none) :
    field16 ch.bytes 0 = 0 ∧ field8 ch.bytes 2 = 0 := by
  simp only [Channel.bytes, h, keyBytes, List.cons_append, field16, field8_cons_zero, field8_cons_succ]
  exact ⟨rfl, rfl⟩

theorem channelBytes_nibbles (ch : Channel) :
    upperNibble ch.bytes 3 = overrideCode ch.override ∧ lowerNibble ch.bytes 3 = ch.driven.code ∧
    upperNibble ch.bytes 4 = ch.source.code ∧ lowerNibble ch.bytes 4 = ch.sensed.code ∧
    (ch.mismatch ≤ 2 → upperNibble ch.bytes 5 = ch.mismatch) ∧
    lowerNibble ch.bytes 5 = faultCode ch.fault := by
  have hover : overrideCode ch.override < 16 := (overrideCode_le _).trans_lt (by decide)
  simp only [upperNibble, lowerNibble, field8_bytes_past_key ch 0, field8_bytes_past_key ch 1,
    field8_bytes_past_key ch 2, field8_cons_zero, field8_cons_succ]
  exact ⟨nibbles_upper hover ch.driven.code_lt, nibbles_lower ch.driven.code_lt,
    nibbles_upper ch.source.code_lt ch.sensed.code_lt, nibbles_lower ch.sensed.code_lt,
    fun hrun => nibbles_upper (hrun.trans_lt (by decide)) (faultCode_lt _), nibbles_lower (faultCode_lt _)⟩

/-! ### Channels laid out one after another -/

theorem flatMap_channelBytes_length (l : List Channel) : (l.flatMap Channel.bytes).length = 6 * l.length := by
  induction l with
  | nil => rfl
  | cons ch l ih =>
    rw [List.flatMap_cons, List.length_append, ih, Channel.bytes_length, List.length_cons]
    omega

theorem field8_flatMap_channelBytes {l : List Channel} {k : Nat} (hk : k < l.length) {i : Nat} (hi : i < 6)
    (rest : List Byte) : field8 (l.flatMap Channel.bytes ++ rest) (6 * k + i) = field8 l[k].bytes i := by
  induction l generalizing k with
  | nil => exact absurd hk (Nat.not_lt_zero k)
  | cons ch l ih =>
    rw [List.flatMap_cons, List.append_assoc]
    cases k with
    | zero => rw [Nat.mul_zero, Nat.zero_add, field8_append_left (by rwa [ch.bytes_length])]; rfl
    | succ k =>
      rw [show 6 * (k + 1) + i = ch.bytes.length + (6 * k + i) by rw [ch.bytes_length]; omega,
        field8_append_right]
      exact ih (Nat.lt_of_succ_lt_succ hk)

/-! ### The data read -/

theorem bankChannels_length (s : State) {bank : Nat} (h : bank ≤ 15) : (s.bankChannels bank).length = 16 := by
  simp only [State.bankChannels, List.length_take, List.length_drop, Vector.length_toList]
  omega

theorem bankChannels_getElem (s : State) {bank k c : Nat} (hk : k < (s.bankChannels bank).length) (hc : c < 256)
    (hck : c = 16 * bank + k) : (s.bankChannels bank)[k] = s.lamps.channels[c] := by
  subst hck
  simp [State.bankChannels]

theorem lampReadData_length (s : State) {bank : Nat} (h : bank ≤ 15) : (s.lampReadData bank).length = 102 := by
  simp only [State.lampReadData, List.cons_append, List.length_cons, List.length_append,
    flatMap_channelBytes_length, bankChannels_length s h, List.length_nil]

theorem field8_lampReadData (s : State) {bank k c : Nat} (h : bank ≤ 15) (hk : k < 16) (hc : c < 256)
    (hck : c = 16 * bank + k) {i : Nat} (hi : i < 6) :
    field8 (s.lampReadData bank) (1 + i + 6 * k) = field8 s.lamps.channels[c].bytes i := by
  have hk' : k < (s.bankChannels bank).length := by rwa [bankChannels_length s h]
  rw [← bankChannels_getElem s hk' hc hck, State.lampReadData, List.cons_append,
    show 1 + i + 6 * k = (6 * k + i) + 1 by omega, field8_cons_succ, field8_flatMap_channelBytes hk' hi]

theorem RunState.code_byte (r : RunState) : (byteOf r.code).toNat = r.code := by cases r <;> rfl

theorem field8_lampReadData_run (s : State) {bank : Nat} (h : bank ≤ 15) (g : Cadence) :
    field8 (s.lampReadData bank) (97 + cadenceCode g) = (s.generators.get g).run.code := by
  have hlen : (byteOf bank :: (s.bankChannels bank).flatMap Channel.bytes).length = 97 := by
    rw [List.length_cons, flatMap_channelBytes_length, bankChannels_length s h]
  rw [State.lampReadData, ← hlen, field8_append_right]
  cases g <;> exact RunState.code_byte _

theorem takeLampRead_eq (x : Byte) (s : State) : takeLampRead [x] s =
    if 15 < x.toNat then .refuse s .badParam else .ok s (s.lampReadData x.toNat) := rfl

/-- Settles O36: each record by its six bytes, or BAD_PARAM. -/
theorem lampReadReportsABank : Obligations.LampReadReportsABank := by
  intro h x s ha
  have hrun := takeLampRead_eq x s.received
  by_cases hbad : 15 < x.toNat
  · obtain ⟨t, hexec, hans⟩ := arriveCommand_refused ha (code := 0x51) rfl rfl (hrun.trans (if_pos hbad))
    exact ⟨t, hexec, fun _ => hans, fun _ => by omega⟩
  have hbank := Nat.le_of_not_lt hbad
  obtain ⟨t, hexec, hans⟩ := arriveCommand_refused ha (code := 0x51) rfl rfl (hrun.trans (if_neg hbad))
  refine ⟨t, hexec, fun hbad' => absurd hbad' hbad, fun _ => ⟨s.lampReadData x.toNat, hans, lampReadData_length s hbank, ?_,
    fun k c hc hk hck => ?_, field8_lampReadData_run s hbank⟩⟩
  · simp [State.lampReadData, byteOf]
  have hfield {i : Nat} (hi : i < 6) := field8_lampReadData s hbank hk hc hck hi
  have hfield16 : field16 (s.lampReadData x.toNat) (1 + 6 * k) = field16 s.lamps.channels[c].bytes 0 := by
    rw [field16, hfield (i := 0) (by decide), show 1 + 6 * k + 1 = 1 + 1 + 6 * k by omega,
      hfield (i := 1) (by decide), field16]
  have hnibbles := channelBytes_nibbles s.lamps.channels[c]
  simp only [upperNibble, lowerNibble] at hnibbles ⊢
  rw [hfield16, hfield (i := 2) (by decide), hfield (i := 3) (by decide), hfield (i := 4) (by decide),
    hfield (i := 5) (by decide)]
  exact ⟨fun key hkey => channelBytes_bound hkey, channelBytes_unbound, hnibbles⟩

end Sys2Proof.Machine
end

section
/-! Sense instants (R100 to R102) and the end of a prove dwell (R106 to R109): the judgement of each channel, and
the faults recorded in ascending channel order. -/

namespace Sys2Proof.Machine

/-! ### Faults found and recorded (R102, R107) -/

/-- The faults that a judgement of the channels finds, read channel by channel. -/
theorem zipIdx_faults (s : State) {newFault : Nat → Channel → Option FaultKind}
    {judge : Nat → Channel → Channel × Option FaultKind} (h : ∀ c ch, newFault c ch = (judge c ch).2) :
    s.lamps.channels.toList.zipIdx.filterMap (fun p => (newFault p.2 p.1).map fun kind => (p.2, kind)) =
      s.faultsFound judge := by
  rw [zipIdx_toList, List.filterMap_filterMap, State.faultsFound]
  refine List.filterMap_congr fun c _ => ?_
  cases s.lamps.channels[c]? with
  | none => rfl
  | some ch => simp only [Option.map_some, Option.bind_some, h]

/-! ### A sense instant (R102) -/

theorem judged_eq (ch : Channel) (expected current : Bool) : judged ch expected current =
    ((ch.judge expected current).channel, (ch.judge expected current).newFault) := by
  unfold judged Channel.judge
  dsimp only
  by_cases hsame : current = expected
  · rw [if_pos hsame, if_pos hsame]
  rw [if_neg hsame, if_neg hsame]
  cases ch.fault with
  | some kind =>
    have hrun : (if ch.mismatch < 2 then ch.mismatch + 1 else 2) = min 2 (ch.mismatch + 1) := by
      split <;> omega
    simp only [Option.isSome_some, if_true, hrun]
  | none =>
    by_cases hrun : ch.mismatch < 2
    · simp only [Option.isSome_none, Bool.false_eq_true, if_false, hrun, if_true]
    · cases expected <;> simp only [Option.isSome_none, Bool.false_eq_true, if_false, hrun, if_true]

/-- The model's judgement of a channel at a sense instant. -/
def Channel.sensedAs (ch : Channel) (expects : Option Bool) (current : Bool) : Judged :=
  match expects with
  | some expected => ch.judge expected current
  | none => ⟨ch, none⟩

theorem senseJudge_eq (expects : Nat → Channel → Option Bool) (currents : BitVec 256) (c : Nat) (ch : Channel) :
    senseJudge expects currents c ch = ((ch.sensedAs (expects c ch) (currents.getLsbD c)).channel,
      (ch.sensedAs (expects c ch) (currents.getLsbD c)).newFault) := by
  unfold senseJudge Channel.sensedAs
  cases expects c ch with
  | none => rfl
  | some expected => exact judged_eq ch expected _

/-- Faults recorded one by one, each making LAMP_FAULT occur, change the reports alone. -/
theorem reportFaults_eq : ∀ (faults : List (Nat × FaultKind)) (s : State), s.reportFaults faults = { s with
    reports := faults.foldl (fun r f => (r.joined s.stamp (.lampFault f.1 f.2)).caused s.stamp .lampFault)
      s.reports }
  | [], _ => rfl
  | f :: faults, s => by
    refine (reportFaults_eq faults ((s.record (.lampFault f.1 f.2)).occur .lampFault)).trans ?_
    rw [List.foldl_cons, Reports.joined_eq, Reports.caused_eq]
    rfl

/-- A sense instant changes the channels and the reports alone, as R102 says. -/
theorem sense_eq (s : State) (expects : Nat → Channel → Option Bool) (currents : BitVec 256) :
    s.sense expects currents = { s.mapChannels (fun c ch => (senseJudge expects currents c ch).1) with
      reports := (s.faultsFound (senseJudge expects currents)).foldl
        (fun r f => (r.joined s.stamp (.lampFault f.1 f.2)).caused s.stamp .lampFault) s.reports } := by
  have hchannel : (fun c ch => (senseJudge expects currents c ch).1) =
      fun c (ch : Channel) => (ch.sensedAs (expects c ch) (currents.getLsbD c)).channel := by
    funext c ch
    rw [senseJudge_eq]
  rw [hchannel, ← zipIdx_faults s fun c ch => (congrArg Prod.snd (senseJudge_eq expects currents c ch)).symm]
  exact reportFaults_eq _ (s.mapChannels _)

theorem sense_channel (s : State) (expects : Nat → Channel → Option Bool) (currents : BitVec 256) (c : Nat)
    (hc : c < 256) : (s.sense expects currents).lamps.channels[c] =
      (senseJudge expects currents c s.lamps.channels[c]).1 := by
  rw [sense_eq]
  exact mapChannels_channel s _ c hc

/-- What a sense instant on a state with the same channels and reports leaves is sensed by it. -/
theorem sensedBy_of_sense {s u t : State} {expects expects' : Nat → Channel → Option Bool}
    {currents : BitVec 256} (hc : u.lamps.channels = s.lamps.channels) (hr : u.reports = s.reports)
    (he : expects' = expects) (hstamp : t.stamp = u.stamp)
    (htc : t.lamps.channels = (u.sense expects' currents).lamps.channels)
    (htr : t.reports = (u.sense expects' currents).reports) : SensedBy s t expects currents := by
  subst he
  refine ⟨fun c hlt => ?_, ?_⟩
  · simp only [htc, sense_channel u _ _ c hlt, hc]
  · rw [htr, sense_eq, hstamp]
    simp only [State.faultsFound, hc, hr]

theorem inSweep_eq (s : State) (c : Nat) : s.inSweep c = s.lamps.sweep.any fun w => c / 16 == w.bank := by
  unfold State.inSweep
  cases s.lamps.sweep <;> rfl

/-! ### The sense timer and the end of a phase (R100, R101, R128) -/

/-- The state at the sense timer's expiry, the timer started again. -/
def State.senseTimerDue (s : State) : State :=
  { s.advanceTo (1000 * s.lamps.senseDue) with lamps := { s.lamps with senseDue := s.lamps.senseDue + 200 } }

theorem exec_senseTimerExpiry {s : State} (hn : NoGrantDue s) (currents : BitVec 256) :
    exec (.senseTimerExpiry currents) s = .next (if s.assigned
      then s.senseTimerDue.sense s.senseTimerDue.timerExpects currents else s.senseTimerDue) := by
  rw [show exec (.senseTimerExpiry currents) s = .next (s.granted.takeSenseTimer currents) from rfl,
    granted_of_noGrantDue hn]
  rfl

theorem exec_phaseEnd {s : State} (hn : NoGrantDue s) (g : Cadence) (currents : BitVec 256) :
    exec (.phaseEnd g currents) s = .next (s.takePhaseEnd g currents) := by
  rw [show exec (.phaseEnd g currents) s = .next (s.granted.takePhaseEnd g currents) from rfl,
    granted_of_noGrantDue hn]

theorem takePhaseEnd_of_phase {s : State} {g : Cadence} {p : Phase} {e : Nat}
    (hp : (s.generators.get g).phase = some (p, e)) (currents : BitVec 256) :
    s.takePhaseEnd g currents = (s.advanceTo (1000 * e)).endPhase g p currents := by
  rw [State.takePhaseEnd, hp]

/-- The sense instant that the end of a phase is, at an ASSIGNED controller. -/
def State.phaseSensed (s : State) (g : Cadence) (p : Phase) (currents : BitVec 256) : State :=
  if s.assigned then s.sense (s.phaseExpects g p) currents else s

theorem endPhase_frame (s : State) (g : Cadence) (p : Phase) (currents : BitVec 256) :
    s.endPhase g p currents = { s with
      generators := s.generators.modify g (·.endPhase p s.now)
      lamps := { s.lamps with channels := (s.phaseSensed g p currents).lamps.channels }
      reports := (s.phaseSensed g p currents).reports } := by
  unfold State.endPhase State.phaseSensed
  dsimp only
  split
  · rw [sense_eq]
    rfl
  · rfl

/-- The generator after the end of its phase (R128, R131). -/
theorem Generator.endPhase_eq (old : Generator) (now : Nat) :
    old.endPhase .on now = { old with phase := some (.off, now + 10 * old.times.off) } ∧
    (old.run = .running → old.endPhase .off now =
      { times := old.reload.getD old.times, reload := none, run := .running
        phase := some (.on, now + 10 * (old.reload.getD old.times).on) }) ∧
    (old.run = .stopping → old.endPhase .off now =
      { times := old.reload.getD old.times, reload := none, run := .stopped, phase := none }) := by
  refine ⟨?_, fun hr => ?_, fun hr => ?_⟩
  · simp only [Generator.endPhase, Generator.begin, CadenceTimes.length, Nat.mul_comm]
  · simp only [Generator.endPhase, hr, Generator.begin, Generator.applyReload, CadenceTimes.length,
      Nat.mul_comm]
  · simp only [Generator.endPhase, hr, Generator.stop, Generator.applyReload]

theorem assigned_eq_false {s : State} (h : s.port.station = none) : ¬ s.assigned = true := by
  rw [State.assigned, h]
  exact Bool.false_ne_true

/-- Settles O50: each row as its sense instant, if the controller has one, and its generator's next phase. -/
theorem senseInstantsJudgeTheLamps : Obligations.SenseInstantsJudgeTheLamps := by
  intro g currents s hn
  refine ⟨⟨_, exec_senseTimerExpiry hn currents, ?_, ?_, fun hnone => ?_, fun hsome => ?_⟩, fun hp => ?_,
    fun p e old hold hp => ?_⟩
  · split
    · rw [sense_eq]; rfl
    · rfl
  · split
    · rw [sense_eq]; rfl
    · rfl
  · rw [if_neg (assigned_eq_false hnone)]
    exact ⟨rfl, rfl⟩
  · rw [if_pos (show s.assigned = true from hsome)]
    refine sensedBy_of_sense (u := s.senseTimerDue) rfl rfl ?_ ?_ rfl rfl
    · funext c ch
      unfold State.timerExpects
      rw [inSweep_eq]
      refine if_congr Iff.rfl rfl ?_
      cases ch.driven <;> rfl
    · rw [sense_eq]; rfl
  · rw [exec_phaseEnd hn, State.takePhaseEnd, hp]
  subst hold
  have hframe := endPhase_frame (s.advanceTo (1000 * e)) g p currents
  have hgenerator (d : Cadence) := Generators.modify_get s.generators g d
    (·.endPhase p (s.advanceTo (1000 * e)).now)
  obtain ⟨hon, hrunning, hstopping⟩ := Generator.endPhase_eq (s.generators.get g)
    (s.advanceTo (1000 * e)).now
  refine ⟨(s.advanceTo (1000 * e)).endPhase g p currents,
    by rw [exec_phaseEnd hn, takePhaseEnd_of_phase hp], ?_⟩
  rw [hframe]
  refine ⟨rfl, rfl, fun d hd => (hgenerator d).trans (if_neg hd), ?_, ?_, ?_, fun hnone => ?_,
    fun hsome => ?_⟩
  · rintro rfl
    exact (hgenerator g).trans ((if_pos rfl).trans hon)
  · rintro rfl hr
    exact (hgenerator g).trans ((if_pos rfl).trans (hrunning hr))
  · rintro rfl hr
    exact (hgenerator g).trans ((if_pos rfl).trans (hstopping hr))
  · have hquiet : (s.advanceTo (1000 * e)).phaseSensed g p currents = s.advanceTo (1000 * e) :=
      if_neg (assigned_eq_false hnone)
    simp only [hquiet]
    exact ⟨rfl, rfl⟩
  · have hsensed : (s.advanceTo (1000 * e)).phaseSensed g p currents =
      (s.advanceTo (1000 * e)).sense ((s.advanceTo (1000 * e)).phaseExpects g p) currents := if_pos hsome
    simp only [hsensed]
    refine sensedBy_of_sense (u := s.advanceTo (1000 * e))
      (expects' := (s.advanceTo (1000 * e)).phaseExpects g p) rfl rfl ?_ rfl rfl rfl
    funext c ch
    unfold State.phaseExpects
    rw [inSweep_eq]
    rfl

end Sys2Proof.Machine
end

section
/-! The end of a prove dwell (R106 to R109): the step judged, and the next step or the completion reply. -/

namespace Sys2Proof.Machine

/-! ### The judgement of a step (R107) -/

theorem Sweep.tests_iff (w : Sweep) (k : Nat) : w.tests k = true ↔ w.step = 0 ∨ w.step = k + 1 := by
  simp only [Sweep.tests, Bool.or_eq_true, beq_iff_eq]

/-- A lamp that the step tests is judged as R107 says; any other lamp of the bank is sampled alone. -/
theorem proved_eq (w : Sweep) (k : Nat) (ch : Channel) (current : Bool) : proved w k ch current =
    if w.tests k then ((w.judgeLamp k current ch).channel, (w.judgeLamp k current ch).newFault)
    else ({ ch with sensed := if current then .present else .absent }, none) := by
  rw [if_congr (w.tests_iff k) rfl rfl]
  unfold proved Sweep.judgeLamp
  dsimp only
  by_cases hzero : w.step = 0
  · rw [if_pos hzero, if_pos (Or.inl hzero)]
    simp only [if_pos hzero]
    cases current <;> cases ch.fault <;> rfl
  by_cases hown : w.step = k + 1
  · rw [if_neg hzero, if_neg (not_not_intro hown), if_pos (Or.inr hown)]
    simp only [if_neg hzero]
    cases current
    · cases ch.fault <;> rfl
    · cases w.failedDark.getLsbD k <;> rfl
  · rw [if_neg hzero, if_pos hown, if_neg (not_or.2 ⟨hzero, hown⟩)]

/-- The sweep's account of a step, as R107 says it. -/
theorem Sweep.note_eq (w : Sweep) (samples : BitVec 16) : w.note samples = w.kept samples := by
  unfold Sweep.note Sweep.kept
  refine if_congr Iff.rfl rfl ?_
  have hbit : 1#16 <<< (w.step - 1) &&& ~~~ samples =
      if (~~~ samples).getLsbD (w.step - 1) then 1#16 <<< (w.step - 1) else 0#16 := by
    rw [← BitVec.twoPow_eq, BitVec.and_comm, BitVec.and_twoPow]
  rw [hbit, BitVec.getLsbD_not]
  cases hsample : samples.getLsbD (w.step - 1)
  · by_cases hlt : w.step - 1 < 16
    · simp [hlt]
    · simp [hlt, BitVec.shiftLeft_eq_zero (Nat.not_lt.1 hlt)]
  · simp

/-- The sample of a channel, among its bank's samples. -/
theorem bankSamples_bit {c bank : Nat} (h : c / 16 = bank) (currents : BitVec 256) :
    (bankSamples bank currents).getLsbD (c % 16) = currents.getLsbD c := by
  have hplace : 16 * bank + c % 16 = c := by omega
  rw [bankSamples, BitVec.getLsbD_extractLsb', hplace, decide_eq_true (Nat.mod_lt c (by decide)), Bool.true_and]

/-- What the model's judgement of a step makes of a channel. -/
def Sweep.stepJudged (w : Sweep) (currents : BitVec 256) (c : Nat) (ch : Channel) : Judged :=
  if c / 16 = w.bank ∧ w.tests (c % 16) then
    w.judgeLamp (c % 16) ((bankSamples w.bank currents).getLsbD (c % 16)) ch
  else ⟨ch, none⟩

theorem Sweep.stepJudged_of_tested {w : Sweep} {c : Nat} (hbank : c / 16 = w.bank)
    (htests : w.step = 0 ∨ w.step = c % 16 + 1) (currents : BitVec 256) (ch : Channel) :
    (w.stepJudged currents c ch).channel = (proved w (c % 16) ch (currents.getLsbD c)).1 := by
  rw [Sweep.stepJudged, if_pos ⟨hbank, (w.tests_iff _).2 htests⟩, proved_eq, if_pos ((w.tests_iff _).2 htests),
    bankSamples_bit hbank]

theorem Sweep.stepJudged_of_untested {w : Sweep} {c : Nat}
    (h : ¬ (c / 16 = w.bank ∧ (w.step = 0 ∨ w.step = c % 16 + 1))) (currents : BitVec 256) (ch : Channel) :
    w.stepJudged currents c ch = ⟨ch, none⟩ :=
  if_neg fun hc => h ⟨hc.1, (w.tests_iff _).1 hc.2⟩

theorem Sweep.stepJudged_newFault (w : Sweep) (currents : BitVec 256) (c : Nat) (ch : Channel) :
    (w.stepJudged currents c ch).newFault =
      (if c / 16 = w.bank then proved w (c % 16) ch (currents.getLsbD c) else (ch, none)).2 := by
  unfold Sweep.stepJudged
  by_cases hbank : c / 16 = w.bank
  · rw [if_pos hbank, proved_eq, bankSamples_bit hbank]
    by_cases htests : w.tests (c % 16) = true
    · rw [if_pos ⟨hbank, htests⟩, if_pos htests]
    · rw [if_neg fun h => htests h.2, if_neg htests]
  · rw [if_neg hbank, if_neg fun h => hbank h.1]

/-- Faults recorded one by one change the reports alone. -/
theorem recordFaults_eq : ∀ (faults : List (Nat × FaultKind)) (s : State),
    faults.foldl (fun s f => s.record (.lampFault f.1 f.2)) s = { s with
      reports := faults.foldl (fun r f => r.joined s.stamp (.lampFault f.1 f.2)) s.reports }
  | [], _ => rfl
  | f :: faults, s => by
    refine (recordFaults_eq faults (s.record (.lampFault f.1 f.2))).trans ?_
    rw [List.foldl_cons, Reports.joined_eq]
    rfl

/-- The faults that the end of a dwell finds, as R107 says. -/
def State.stepFaults (s : State) (w : Sweep) (currents : BitVec 256) : List (Nat × FaultKind) :=
  s.faultsFound fun c ch => if c / 16 = w.bank then proved w (c % 16) ch (currents.getLsbD c) else (ch, none)

/-- The judgement of a step changes the channels and the Event Queue alone. -/
theorem judgeStep_eq (s : State) (w : Sweep) (currents : BitVec 256) :
    s.judgeStep w (bankSamples w.bank currents) =
      { s.mapChannels (fun c ch => (w.stepJudged currents c ch).channel) with
        reports := (s.stepFaults w currents).foldl (fun r f => r.joined s.stamp (.lampFault f.1 f.2))
          s.reports } := by
  rw [State.stepFaults, ← zipIdx_faults s (w.stepJudged_newFault currents)]
  exact recordFaults_eq _ (s.mapChannels _)

theorem judgeStep_channel (s : State) (w : Sweep) (currents : BitVec 256) (c : Nat) (hc : c < 256) :
    (s.judgeStep w (bankSamples w.bank currents)).lamps.channels[c] =
      (w.stepJudged currents c s.lamps.channels[c]).channel := by
  rw [judgeStep_eq]
  exact mapChannels_channel s _ c hc

/-! ### Completion (R109) -/

theorem Sweep.replyData_eq (w : Sweep) : w.replyData = w.completionData := by
  have hlamp : (fun k => byteOf (w.lampResult k)) = fun k =>
      if w.failedDark.getLsbD k then if w.failedOwn.getLsbD k then 3 else 1
      else if w.failedOwn.getLsbD k then 2 else 0 := by
    funext k
    unfold Sweep.lampResult
    cases w.failedDark.getLsbD k <;> cases w.failedOwn.getLsbD k <;> rfl
  rw [Sweep.replyData, hlamp]
  rfl

/-- The sweep is IDLE, its reply in the reserved slot, and LAMP_FAULT has occurred if a lamp failed. -/
theorem completeSweep_eq (s : State) (w : Sweep) : s.completeSweep w = { s.withSweep none with
    commands := { s.commands with
      reserved := s.commands.reserved - 1
      replies := s.commands.replies ++ [⟨0x05, 63, s.port.station.getD 0,
        [w.tag, 0x53, 0] ++ w.completionData⟩] }
    reports := if w.failedDark ||| w.failedOwn = 0 then s.reports else s.reports.caused s.stamp .lampFault } := by
  rw [← w.replyData_eq, Reports.caused_eq]
  unfold State.completeSweep Sweep.failSet
  dsimp only
  split <;> rfl

/-! ### The row DWELL_END -/

theorem exec_dwellEnd {s : State} (hn : NoGrantDue s) (currents : BitVec 256) :
    exec (.dwellEnd currents) s = .next (s.takeDwellEnd currents) := by
  rw [show exec (.dwellEnd currents) s = .next (s.granted.takeDwellEnd currents) from rfl,
    granted_of_noGrantDue hn]

/-- The end of a dwell before the lamps settle: the step judged, then the next step, or completion. -/
def State.dwellEnded (s : State) (w : Sweep) (currents : BitVec 256) : State :=
  let t := s.judgeStep w (bankSamples w.bank currents)
  let w' := w.kept (currents.extractLsb' (16 * w.bank) 16)
  if w.step < 16 then t.withSweep (some { w' with step := w.step + 1, run := .running (s.now + 200) })
  else t.completeSweep w'

theorem endDwell_eq (s : State) (w : Sweep) (currents : BitVec 256) :
    s.endDwell w currents = (s.dwellEnded w currents).settleLamps := by
  unfold State.endDwell State.dwellEnded
  dsimp only
  rw [w.note_eq, judgeStep_eq]
  split
  next h => rw [if_pos (show w.step < 16 from h)]; rfl
  next h => rw [if_neg (show ¬ w.step < 16 from h)]; rfl

theorem dwellEnded_channels (s : State) (w : Sweep) (currents : BitVec 256) :
    (s.dwellEnded w currents).lamps.channels =
      (s.judgeStep w (bankSamples w.bank currents)).lamps.channels := by
  unfold State.dwellEnded
  dsimp only
  split
  · rfl
  · rw [completeSweep_eq]
    rfl

theorem dwellEnded_kept (s : State) (w : Sweep) (currents : BitVec 256) (c : Nat) (hc : c < 256) :
    (s.dwellEnded w currents).settleLamps.lamps.channels[c].kept =
      if c / 16 = w.bank ∧ (w.step = 0 ∨ w.step = c % 16 + 1)
        then (proved w (c % 16) s.lamps.channels[c] (currents.getLsbD c)).1.kept
        else s.lamps.channels[c].kept := by
  rw [settleLamps_kept _ _ hc]
  simp only [dwellEnded_channels, judgeStep_channel s w currents c hc]
  split
  next h => rw [Sweep.stepJudged_of_tested h.1 h.2]
  next h => rw [Sweep.stepJudged_of_untested h]

theorem dwellEnded_next {s : State} {w : Sweep} (h : w.step < 16) (currents : BitVec 256) :
    s.dwellEnded w currents = (s.judgeStep w (bankSamples w.bank currents)).withSweep
      (some { w.kept (currents.extractLsb' (16 * w.bank) 16) with
        step := w.step + 1, run := .running (s.now + 200) }) :=
  if_pos h

theorem dwellEnded_complete {s : State} {w : Sweep} (h : 16 ≤ w.step) (currents : BitVec 256) :
    s.dwellEnded w currents = (s.judgeStep w (bankSamples w.bank currents)).completeSweep
      (w.kept (currents.extractLsb' (16 * w.bank) 16)) :=
  if_neg (Nat.not_lt.2 h)

theorem Sweep.kept_tag (w : Sweep) (samples : BitVec 16) : (w.kept samples).tag = w.tag := by
  unfold Sweep.kept
  split <;> rfl

theorem takeDwellEnd_of_running {s : State} {w : Sweep} {e : Nat} (hw : s.lamps.sweep = some w)
    (hrun : w.run = .running e) (currents : BitVec 256) :
    s.takeDwellEnd currents = ((s.advanceTo (1000 * e)).dwellEnded w currents).settleLamps := by
  rw [State.takeDwellEnd, hw, ← endDwell_eq]
  simp only [hrun, SweepRun.ends]

/-- The end of a dwell changes the clock, the slots, the Lamp Drive Unit and the reports alone. -/
theorem dwellEnded_same (s : State) (w : Sweep) (currents : BitVec 256) :
    (s.dwellEnded w currents).settleLamps = { s with
      commands := (s.dwellEnded w currents).settleLamps.commands
      lamps := (s.dwellEnded w currents).settleLamps.lamps
      reports := (s.dwellEnded w currents).settleLamps.reports } := by
  unfold State.dwellEnded
  dsimp only
  rw [judgeStep_eq]
  split
  · rfl
  · rw [completeSweep_eq]; rfl

/-- Settles O40: the judgement of the step, then the next step's dwell or the completion's reply. -/
theorem dwellEndJudgesTheStep : Obligations.DwellEndJudgesTheStep := by
  intro currents s hn
  rw [exec_dwellEnd hn]
  refine ⟨fun hw => ?_, fun w hw hrun => ?_, ?_⟩
  · rw [State.takeDwellEnd, hw]
  · rw [State.takeDwellEnd, hw]
    simp only [hrun, SweepRun.ends]
  rintro w e w' faults hw hrun rfl rfl
  rw [takeDwellEnd_of_running hw hrun]
  refine ⟨_, rfl, dwellEnded_same (s.advanceTo (1000 * e)) w currents,
    dwellEnded_kept (s.advanceTo (1000 * e)) w currents, settleLamps_settled _, ?_⟩
  rintro r rfl
  refine ⟨fun hstep => ?_, fun hstep => ?_⟩
  · rw [dwellEnded_next hstep, judgeStep_eq]
    exact ⟨rfl, rfl, rfl⟩
  · rw [dwellEnded_complete hstep, completeSweep_eq, judgeStep_eq, Sweep.kept_tag]
    exact ⟨rfl, rfl, rfl⟩

end Sys2Proof.Machine
end

section
/-! The idle step (R114, 4.5): an own event of the controller that is due is taken at the moment standing, with
the queue of commands as it is, and time passes over none. -/

namespace Sys2Proof.Machine

/-! ### The clock and the queue of commands left alone -/

/-- The clock, and the commands that wait. -/
def State.clockAndQueue (s : State) : Nat × List Instr := (s.clock, s.pending)

theorem granted_clockAndQueue (s : State) : s.granted.clockAndQueue = s.clockAndQueue := by
  rw [granted_frame]
  rfl

theorem frameError_clockAndQueue (s : State) : s.frameError.clockAndQueue = s.clockAndQueue := by
  unfold State.frameError State.countFrameError
  dsimp only
  repeat' split
  all_goals rfl

theorem lateBoundExpires_clockAndQueue (s : State) (reference : Nat) :
    (s.lateBoundExpires reference).clockAndQueue = s.clockAndQueue := by
  unfold State.lateBoundExpires
  dsimp only
  repeat' split
  all_goals rfl

theorem endDwell_clockAndQueue (s : State) (w : Sweep) (currents : BitVec 256) :
    (s.endDwell w currents).clockAndQueue = s.clockAndQueue := by
  rw [endDwell_eq, dwellEnded_same]
  rfl

theorem endPhase_clockAndQueue (s : State) (c : Cadence) (ended : Phase) (currents : BitVec 256) :
    (s.endPhase c ended currents).clockAndQueue = s.clockAndQueue := by
  rw [endPhase_frame]
  rfl

theorem senseTimer_clockAndQueue (s : State) (currents : BitVec 256) :
    (s.senseTimer currents).clockAndQueue = s.clockAndQueue := by
  unfold State.senseTimer
  dsimp only
  split
  · rw [sense_eq]
    rfl
  · rfl

theorem performKey_clockAndQueue (l : Line) (s : State) : (s.performKey l).clockAndQueue = s.clockAndQueue := by
  unfold State.performKey
  split
  · rw [acknowledgeAll_frame]
    rfl
  · rw [acknowledgeAll_frame]
    rfl
  all_goals rfl

theorem press_clockAndQueue (s : State) (i : Fin 8) (l : Line) :
    (s.press i l).clockAndQueue = s.clockAndQueue := by
  unfold State.press
  split
  · rfl
  · exact performKey_clockAndQueue l _

theorem debounceExpires_clockAndQueue (s : State) (i : Fin 8) :
    (s.debounceExpires i).clockAndQueue = s.clockAndQueue := by
  unfold State.debounceExpires
  dsimp only
  repeat' split
  · rfl
  · rfl
  · exact press_clockAndQueue (s.modifyLine i Line.debounced) i _
  · rfl

/-! ### A due event taken (R98, R100, R107, R115, R128, R139, R156, R166, R184) -/

/-- A moment that the clock has reached does not move it. -/
theorem advanceTo_of_reached {s : State} {us : Nat} (h : us ≤ s.clock) : s.advanceTo us = s := by
  rw [State.advanceTo, Nat.max_eq_left h]

/-- A ms that the time base has reached does not move the clock. -/
theorem advanceTo_of_now {s : State} {ms : Nat} (h : ms ≤ s.now) : s.advanceTo (1000 * ms) = s := by
  have hnow : s.now = s.clock / 1000 := rfl
  exact advanceTo_of_reached (by omega)

/-- A grant that is made leaves every other event due that was due. -/
theorem Due.granted {s : State} {e : OwnEvent} (h : Due s e) (he : e ≠ .grant) : Due s.granted e := by
  have hnow : s.granted.now = s.now := now_congr s.granted_clock
  cases e with
  | grant => exact absurd rfl he
  | sent =>
    obtain ⟨f, ends, hsending, hends⟩ := h
    rw [granted_of_noGrantDue (.inl (by rw [hsending]; rfl))]
    exact ⟨f, ends, hsending, hends⟩
  | debounce i => simpa only [Due, State.line, State.granted_panel, hnow] using h
  | _ =>
    simpa only [Due, State.granted_startDue, State.granted_clock, State.granted_receiver,
      State.granted_supervisor, State.granted_lamps, State.granted_generators, hnow] using h

/-- An own event that is due is taken at the moment standing, and no command with it. -/
theorem take_clockAndQueue {s : State} {e : OwnEvent} (h : Due s e) (currents : BitVec 256) :
    (e.take currents s).clockAndQueue = s.clockAndQueue := by
  rw [← granted_clockAndQueue s]
  by_cases he : e = .grant
  · rw [he]
    rfl
  have hdue := h.granted he
  unfold OwnEvent.take
  generalize s.granted = u at hdue ⊢
  cases e with
  | grant => rfl
  | started =>
    obtain ⟨hstart, hreached⟩ := hdue
    obtain ⟨cause, hcause⟩ := Option.isSome_iff_exists.1 hstart
    simp only [State.takeStarted, hcause, advanceTo_of_reached (us := Config.startedDelay) hreached]
    rfl
  | gap =>
    obtain ⟨g, hg, hreached⟩ := hdue
    simp only [State.takeTruncated, (gapEnds_iff _ g).2 hg, advanceTo_of_reached hreached]
    exact frameError_clockAndQueue u
  | sent =>
    obtain ⟨f, ends, hsending, hreached⟩ := hdue
    simp only [State.takeTransmissionEnd, hsending, advanceTo_of_reached hreached]
    rfl
  | lateBound =>
    obtain ⟨hstate, r, hr, hreached⟩ := hdue
    have hbound : u.supervisor.lateBound r ≤ u.now := hreached
    cases hv : u.supervisor.state with
    | noSync => exact absurd hv hstate
    | _ =>
      simp only [State.takeLateBound, hv, hr, advanceTo_of_now hbound]
      exact lateBoundExpires_clockAndQueue u r
  | dwell =>
    obtain ⟨w, ends, hw, hrun, hreached⟩ := hdue
    simp only [State.takeDwellEnd, hw, hrun, SweepRun.ends, advanceTo_of_now hreached]
    exact endDwell_clockAndQueue u w currents
  | hold =>
    obtain ⟨ends, hends, hreached⟩ := hdue
    simp only [State.takeHoldExpiry, hends, advanceTo_of_now hreached]
    rfl
  | phase c =>
    obtain ⟨p, ends, hphase, hreached⟩ := hdue
    simp only [State.takePhaseEnd, hphase, advanceTo_of_now hreached]
    exact endPhase_clockAndQueue u c p currents
  | debounce i =>
    obtain ⟨m, hm, hreached⟩ := hdue
    simp only [State.takeDebounce, State.debounceDue, hm, Option.map_some, advanceTo_of_now hreached]
    exact debounceExpires_clockAndQueue u i
  | sense =>
    have hreached : u.lamps.senseDue ≤ u.now := hdue
    simp only [State.takeSenseTimer, advanceTo_of_now hreached]
    exact senseTimer_clockAndQueue u currents

/-! ### Time passed -/

/-- The next moment lies no further than the next whole ms (R114). -/
theorem nextMoment_le (s : State) : s.nextMoment ≤ s.clock + 1000 := by
  have hnow : s.now = s.clock / 1000 := rfl
  have hms : s.nextMoment ≤ (s.now + 1) * 1000 :=
    ((earlier_le _ _).1.trans (earlier_le _ _).1).trans (earlier_le _ _).1
  omega

/-- Settles O2: the step is the own event that is due, or time passing to the next moment. -/
theorem idleStepTakesADueEventOrPassesTime : Obligations.IdleStepTakesADueEventOrPassesTime := by
  intro s hq
  have hstep : step s = idleStep s := by rw [step, hq]
  rw [hstep, idleStep]
  cases hown : s.ownEvent with
  | some e =>
    have hdue : Due s e := ownEvent_due hown
    have hdrawn : Due s.drawCurrents e := by cases e <;> exact hdue
    obtain ⟨hclock, hpending⟩ := Prod.mk.inj (take_clockAndQueue hdrawn s.freeCurrents)
    exact ⟨e.take s.freeCurrents s.drawCurrents, exec_row .., hpending.trans hq,
      fun _ => ⟨e, s.freeCurrents, hdue, exec_row .., hclock⟩, fun hnone => absurd hdue (hnone e)⟩
  | none =>
    obtain ⟨hahead, hquiet⟩ := not_due_before hown
    have hpass : s.passTime = { s with clock := s.nextMoment } := by
      rw [State.passTime, State.advanceTo, Nat.max_eq_right (Nat.le_of_lt hahead)]
    refine ⟨_, congrArg _ hpass, hq, fun ⟨e, hdue⟩ => ?_, fun _ => ⟨rfl, hahead, nextMoment_le s, hquiet⟩⟩
    have hsome := ownEvent_isSome hdue
    rw [hown] at hsome
    exact absurd hsome Bool.false_ne_true

end Sys2Proof.Machine
end

section
/-! The commands of loop time: SET TIMING (R124), RESYNC (R125) and SET CADENCE (R129, R130). -/

namespace Sys2Proof.Machine

/-! ### SET TIMING (R124) -/

/-- SET TIMING by its period and window: refused out of range, carried out otherwise. -/
theorem takeSetTiming_cases (b : List Byte) (s : State) {p w : Nat} (hp : p = field16 b 0)
    (hw : w = field16 b 2) :
    (p < 100 ∨ 5000 < p ∨ p % 10 ≠ 0 ∨ w < 10 ∨ p < 2 * w → takeSetTiming b s = .refuse s .badParam) ∧
    (100 ≤ p ∧ p ≤ 5000 ∧ p % 10 = 0 ∧ 10 ≤ w ∧ 2 * w ≤ p →
      takeSetTiming b s = .ok (s.setTiming ⟨p, w, field8 b 4, field8 b 5⟩)) := by
  subst hp hw
  refine ⟨fun hbad => ?_, fun hok => ?_⟩
  · have hfield : timingField b = none := if_neg (by omega)
    rw [takeSetTiming, hfield]
  · have hfield : timingField b = some ⟨field16 b 0, field16 b 2, field8 b 4, field8 b 5⟩ := if_pos hok
    rw [takeSetTiming, hfield]

/-- The reference advances by whole periods, and by no more of them than the late bound needs (R124). -/
theorem catchUp_eq {v : Supervisor} (hp : 0 < v.period) (now r : Nat) : ∃ k,
    v.catchUp now r = r + k * v.period ∧ now < r + k * v.period + v.period + v.window ∧
      (k ≠ 0 → r + (k - 1) * v.period + v.period + v.window ≤ now) := by
  have hbound : v.lateBound r = r + v.period + v.window := rfl
  unfold Supervisor.catchUp
  split
  next hahead => exact ⟨0, by omega, by omega, fun h => absurd rfl h⟩
  next hover =>
    have hbelow := Nat.div_mul_le_self (now - v.lateBound r) v.period
    have habove := Nat.lt_div_mul_add hp (a := now - v.lateBound r)
    refine ⟨_, rfl, ?_, fun _ => ?_⟩
    · rw [Nat.succ_mul]
      omega
    · rw [Nat.add_sub_cancel]
      omega

/-- Settles O19: the ranges checked, then the reference caught up with the command. -/
theorem setTimingKeepsTheLateBoundAhead : Obligations.SetTimingKeepsTheLateBoundAhead := by
  intro h b s ha hlen p w hp hw
  obtain ⟨refused, accepted⟩ := takeSetTiming_cases b s.received hp hw
  by_cases hok : 100 ≤ p ∧ p ≤ 5000 ∧ p % 10 = 0 ∧ 10 ≤ w ∧ 2 * w ≤ p
  · refine ⟨_, arriveCommand_answered ha (code := 0x10) rfl hlen (accepted hok), fun hbad => by omega,
      fun _ => ⟨rfl, heard_of_received ha rfl, answered_oneReply rfl, rfl, fun hnone => ?_, fun r hr => ?_⟩⟩
    · exact Option.map_eq_none_iff.2 hnone
    · obtain ⟨k, hk, hahead, hleast⟩ := catchUp_eq (v := { s.supervisor with
        period := p, window := w, missLimit := field8 b 4, skewLimit := field8 b 5
        misses := 0, skews := 0 }) (show 0 < p by omega) s.now r
      refine ⟨k, ?_, hahead, hleast⟩
      rw [← hk]
      exact congrArg (Option.map _) hr
  · obtain ⟨t, hexec, hans⟩ := arriveCommand_refused ha (code := 0x10) (r := .badParam) (data := []) rfl hlen
      (refused (by omega))
    exact ⟨t, hexec, fun _ => hans, fun hok' => absurd hok' hok⟩

/-! ### RESYNC (R125) -/

/-- Supervision in NO_SYNC and every generator realigned, before quality return (R125, R133). -/
def State.resynced (s : State) : State := State.realign { s with supervisor := s.supervisor.unsync }

theorem resync_of_lost {s : State} (h : s.supervisor.state = .lost) :
    s.resync = (s.resynced.qualityReturn s anyEntry).settleLamps := by
  rw [State.resync, if_pos h]
  rfl

theorem resync_of_not_lost {s : State} (h : s.supervisor.state ≠ .lost) :
    s.resync = s.resynced.settleLamps := by
  rw [State.resync, if_neg h]
  rfl

theorem resync_frame (s : State) : s.resync = { s.resynced with
    points := s.resync.points, alarms := s.resync.alarms, groups := s.resync.groups
    reports := s.resync.reports, lamps := s.resync.lamps } := by
  by_cases h : s.supervisor.state = .lost
  · exact settled_qualityReturn_frame _ _ _ (resync_of_lost h)
  · rw [resync_of_not_lost h]
    rfl

theorem resync_onlyRedriven (s : State) : OnlyRedriven s s.resync := by
  by_cases h : s.supervisor.state = .lost
  · rw [resync_of_lost h]
    exact onlyRedriven_settleLamps (qualityReturn_alarmSide s.resynced s anyEntry).lamps
  · rw [resync_of_not_lost h]
    exact onlyRedriven_settleLamps rfl

theorem resynced_generator (s : State) (c : Cadence) :
    s.resynced.generators.get c = realigned s.now (s.generators.get c) :=
  (Generators.map_get _ _ c).trans (Generator.realign_eq _ _)

/-- Settles O20: supervision and the generators set anew, then quality return out of LOST. -/
theorem resyncRealignsAndRecovers : Obligations.ResyncRealignsAndRecovers := by
  intro h s ha hk
  have hsupervisor : s.received.resync.supervisor = s.supervisor.unsync := by
    rw [resync_frame]
    rfl
  have hgenerators : s.received.resync.generators = s.received.resynced.generators := by rw [resync_frame]
  refine ⟨s.received.resync.answered h 0x11 [], arriveCommand_answered ha (code := 0x11) rfl rfl rfl, ?frame,
    heard_of_received ha ?port, answered_oneReply ?commands, hsupervisor, fun c => ?generator,
    fun hlost => ?returned, fun hstep => ?same, (resync_onlyRedriven s.received).withCommands _⟩
  case frame =>
    have hframe := resync_frame s.received
    generalize s.received.resync = u at hframe ⊢
    rw [hframe]
    rfl
  case port => rw [State.answered, resync_frame]; rfl
  case commands => rw [resync_frame]; rfl
  case generator => exact (congrArg (·.get c) hgenerators).trans (resynced_generator s.received c)
  case returned =>
    have hreturned := qualityReturn_returned (before := s.received) (now := s.received.resynced) anyEntry
      hk.distinct
    change Returned s { s with supervisor := s.received.resync.supervisor } _ _
    rw [hsupervisor, resync_of_lost (s := s.received) hlost]
    exact ⟨hreturned.points, hreturned.board⟩
  case same =>
    rw [resync_of_not_lost (s := s.received) hstep]
    exact ⟨rfl, rfl, rfl, rfl⟩

/-! ### SET CADENCE (R129, R130) -/

theorem cadenceOfCode_cadenceCode (c : Cadence) : cadenceOfCode (cadenceCode c) = some c := by
  cases c <;> rfl

theorem cadenceCode_injective {c d : Cadence} (h : cadenceCode c = cadenceCode d) : c = d :=
  Option.some.inj (by rw [← cadenceOfCode_cadenceCode c, h, cadenceOfCode_cadenceCode])

/-- The codes of the generators are 0 to 4 (R200). -/
theorem exists_cadenceCode_iff (n : Nat) : (∃ c, cadenceCode c = n) ↔ n ≤ 4 := by
  refine ⟨fun ⟨c, hc⟩ => ?_, fun hn => ?_⟩
  · have hcode : cadenceCode c ≤ 4 := by cases c <;> decide
    omega
  · interval_cases n
    exacts [⟨.alert, rfl⟩, ⟨.first, rfl⟩, ⟨.ret, rfl⟩, ⟨.motion, rfl⟩, ⟨.stale, rfl⟩]

theorem cadenceOfCode_eq_none {n : Nat} (h : 4 < n) : cadenceOfCode n = none := by
  obtain ⟨m, rfl⟩ : ∃ m, n = m + 5 := ⟨n - 5, by omega⟩
  rfl

theorem runRequestField_eq_none {b : List Byte} (h : field8 b 3 = 0 ∨ 2 < field8 b 3) :
    runRequestField b = none := by
  unfold runRequestField
  split
  next hone => omega
  next htwo => omega
  next => rfl

theorem runRequestField_eq_some {b : List Byte} (h : field8 b 3 = 1 ∨ field8 b 3 = 2) :
    runRequestField b = some (decide (field8 b 3 = 1)) := by
  rcases h with h | h <;> rw [runRequestField, h] <;> rfl

/-- One generator set by SET CADENCE (R130). -/
def State.cadenceSet (s : State) (c : Cadence) (times : CadenceTimes) (run : Bool) : State :=
  { s with generators := s.generators.modify c (·.set times run s.now) }

theorem cadenceSet_get (s : State) (c d : Cadence) (times : CadenceTimes) (run : Bool) :
    (s.cadenceSet c times run).generators.get d =
      if d = c then (s.generators.get d).set times run s.now else s.generators.get d :=
  Generators.modify_get s.generators c d _

/-- SET CADENCE by its generator and its run request: refused where one is none, carried out otherwise. -/
theorem takeSetCadence_cases (b : List Byte) (s : State) :
    (4 < field8 b 0 ∨ field8 b 3 = 0 ∨ 2 < field8 b 3 → takeSetCadence b s = .refuse s .badParam) ∧
    (∀ c, cadenceCode c = field8 b 0 → field8 b 3 = 1 ∨ field8 b 3 = 2 → takeSetCadence b s =
      .ok (s.cadenceSet c (cadenceTimesField b) (field8 b 3 = 1))) := by
  refine ⟨fun hbad => ?_, fun c hc hrun => ?_⟩
  · rcases hbad with hcadence | hrun
    · rw [takeSetCadence, cadenceOfCode_eq_none hcadence]
    · rw [takeSetCadence, runRequestField_eq_none hrun]
      cases cadenceOfCode (field8 b 0) <;> rfl
  · rw [takeSetCadence, ← hc, cadenceOfCode_cadenceCode, runRequestField_eq_some hrun]
    rfl

/-- A generator not STOPPED takes the times as a pending reload, and runs or stops (R130). -/
theorem set_of_not_stopped {g : Generator} (h : g.run ≠ .stopped) (times : CadenceTimes) (run : Bool)
    (now : Nat) : g.set times run now =
      { g with reload := some times, run := if run then .running else .stopping } := by
  unfold Generator.set
  split
  next hstopped => exact absurd hstopped h
  next => rfl

/-- A STOPPED generator takes the times at once, and RUN begins an ON phase (R130). -/
theorem set_of_stopped {g : Generator} (h : g.run = .stopped) (times : CadenceTimes) (now : Nat) :
    g.set times true now = ⟨times, none, .running, some (.on, now + 10 * times.on)⟩ ∧
    g.set times false now = { g with times := times, reload := none } := by
  simp only [Generator.set, h, Generator.begin, CadenceTimes.length, Nat.mul_comm]
  exact ⟨rfl, rfl⟩

/-- Settles O21: the checks, then the generator set by its run state. -/
theorem setCadenceActsByTheRunState : Obligations.SetCadenceActsByTheRunState := by
  intro h b s ha hlen i hi
  have hexec : exec i s = s.arriveCommand h 0x12 b := by rcases hi with rfl | rfl <;> rfl
  rw [hexec]
  obtain ⟨refused, accepted⟩ := takeSetCadence_cases b s.received
  by_cases hbad : 4 < field8 b 0 ∨ field8 b 3 = 0 ∨ 2 < field8 b 3
  · obtain ⟨t, ht, hans⟩ := arriveCommand_refused ha (code := 0x12) (r := .badParam) (data := []) rfl hlen
      (refused hbad)
    refine ⟨t, ht, fun _ => hans, fun c times g hc _ _ hrun => absurd hbad ?_⟩
    have hcadence := (exists_cadenceCode_iff (field8 b 0)).1 ⟨c, hc⟩
    omega
  obtain ⟨c, hc⟩ := (exists_cadenceCode_iff (field8 b 0)).2 (by omega)
  have hset := accepted c hc (by omega)
  refine ⟨_, arriveCommand_answered ha (code := 0x12) rfl hlen hset, fun hbad' => absurd hbad' hbad, ?_⟩
  rintro c' times g hc' rfl rfl hrun
  obtain rfl : c' = c := cadenceCode_injective (hc'.trans hc.symm)
  have hget (d : Cadence) := cadenceSet_get s.received c' d (cadenceTimesField b) (field8 b 3 = 1)
  have hown := (hget c').trans (if_pos rfl)
  refine ⟨rfl, heard_of_received ha rfl, answered_oneReply rfl, fun d hd => (hget d).trans (if_neg hd),
    fun hg => hown.trans ?_, fun hg hone => hown.trans ?_, fun hg htwo => hown.trans ?_⟩
  · refine (set_of_not_stopped hg _ _ _).trans ?_
    simp only [decide_eq_true_eq]
    rfl
  · rw [decide_eq_true hone]
    exact (set_of_stopped hg _ _).1
  · rw [decide_eq_false (by omega)]
    exact (set_of_stopped hg _ _).2

end Sys2Proof.Machine
end

section
/-! Supervision in time: the judgement of an accepted marker (R116 to R119, R122, R123, R126) and the late bound's
expiry (R115, R120, R122). -/

namespace Sys2Proof.Machine

/-! ### A marker judged (R117 to R119, R122) -/

@[simp] theorem passedOn_generators (s : State) (f : Frame) : (s.passedOn f).generators = s.generators := by
  rw [passedOn_frame]

/-- The judgement moves the supervisor, the generators and the alarm side. -/
theorem judgeMarker_alarmSide (s arrival : State) (sync : Bool) : AlarmSide
    { s with
      supervisor := (s.judgeMarker arrival sync).supervisor
      generators := (s.judgeMarker arrival sync).generators }
    (s.judgeMarker arrival sync) := by
  unfold State.judgeMarker
  split
  · rfl
  next =>
    have hside := qualityReturn_alarmSide { s with supervisor := s.supervisor.start s.now } arrival anyEntry
    dsimp only
    rw [hside.supervisor, hside.generators]
    exact hside
  · dsimp only
    repeat' split
    all_goals rfl

/-- A marker in NO_SYNC or LOST starts supervision (R117, R122). -/
theorem judgeMarker_start {s : State} (h : s.supervisor.state ≠ .inStep) (arrival : State) (sync : Bool) :
    (s.judgeMarker arrival sync).generators = s.generators ∧
    (s.judgeMarker arrival sync).supervisor = s.supervisor.start s.now := by
  unfold State.judgeMarker
  split
  · exact ⟨rfl, rfl⟩
  next =>
    have hside := qualityReturn_alarmSide { s with supervisor := s.supervisor.start s.now } arrival anyEntry
    exact ⟨hside.generators, hside.supervisor⟩
  next hstep => exact absurd hstep h

/-- An early marker advances the skew count (R119). -/
theorem judgeMarker_early {s : State} (h : s.supervisor.state = .inStep)
    (hearly : s.supervisor.isEarly s.now = true) (arrival : State) (sync : Bool) :
    (s.judgeMarker arrival sync).generators = s.generators ∧
    (s.judgeMarker arrival sync).supervisor = s.supervisor.early := by
  simp only [State.judgeMarker, h, hearly, if_true]
  split <;> exact ⟨rfl, rfl⟩

/-- A marker that is not early moves the reference, and realigns the cadences where SYNC is set (R118, R133). -/
theorem judgeMarker_inWindow {s : State} (h : s.supervisor.state = .inStep)
    (hearly : ¬ s.supervisor.isEarly s.now = true) (arrival : State) (sync : Bool) :
    (s.judgeMarker arrival sync).supervisor = s.supervisor.inWindow s.now ∧
    ∀ c, (s.judgeMarker arrival sync).generators.get c =
      if sync = true then realigned s.now (s.generators.get c) else s.generators.get c := by
  simp only [State.judgeMarker, h, if_neg hearly]
  cases sync with
  | true => exact ⟨rfl, fun c => (Generators.map_get _ _ c).trans (Generator.realign_eq _ _)⟩
  | false => exact ⟨rfl, fun _ => rfl⟩

/-- The judgement records no cycle number and starts no stamp: step 1 of the marker does (R123, R126). -/
theorem judgeMarker_stampBase (s arrival : State) (sync : Bool) :
    (s.judgeMarker arrival sync).supervisor.cycle = s.supervisor.cycle ∧
    (s.judgeMarker arrival sync).supervisor.stampFrom = s.supervisor.stampFrom := by
  by_cases hstep : s.supervisor.state = .inStep
  · by_cases hearly : s.supervisor.isEarly s.now = true
    · rw [(judgeMarker_early hstep hearly arrival sync).2, Supervisor.early]
      split <;> exact ⟨rfl, rfl⟩
    · rw [(judgeMarker_inWindow hstep hearly arrival sync).1]
      exact ⟨rfl, rfl⟩
  · rw [(judgeMarker_start hstep arrival sync).2]
    exact ⟨rfl, rfl⟩

/-! ### A marker accepted (R116, R123) -/

/-- Steps 1 to 3 of an accepted marker move the alarm side and the silence counts, past the marker's record. -/
theorem beforeJudgement_frame (s : State) (cycle : Nat) : s.beforeJudgement cycle = { s.marked cycle with
    points := (s.beforeJudgement cycle).points, alarms := (s.beforeJudgement cycle).alarms
    groups := (s.beforeJudgement cycle).groups, reports := (s.beforeJudgement cycle).reports
    outstations := s.outstations.map (·.hush s.staleLimit) } := by
  have hside : (s.marked cycle).advanceTravels s = _ := advanceTravels_alarmSide (s.marked cycle) s
  rw [State.beforeJudgement, countSilence_eq]
  generalize (s.marked cycle).advanceTravels s = a at hside ⊢
  rw [hside]
  rfl

/-- An accepted marker as its record, its silence counts and its judgement leave it. -/
theorem acceptMarker_frame (s : State) (cycle : Nat) (sync : Bool) {t : State}
    (ht : t = s.acceptMarker cycle sync) : t = { s with
      supervisor := ((s.beforeJudgement cycle).judgeMarker s sync).supervisor
      generators := ((s.beforeJudgement cycle).judgeMarker s sync).generators
      points := t.points, outstations := s.outstations.map (·.hush s.staleLimit), alarms := t.alarms
      groups := t.groups, reports := t.reports, lamps := t.lamps } := by
  have hbefore := beforeJudgement_frame s cycle
  have hjudged : (s.beforeJudgement cycle).judgeMarker s sync = _ :=
    judgeMarker_alarmSide (s.beforeJudgement cycle) s sync
  subst ht
  rw [acceptMarker_eq]
  generalize (s.beforeJudgement cycle).judgeMarker s sync = u at hjudged ⊢
  rw [hjudged]
  generalize s.beforeJudgement cycle = a at hbefore ⊢
  rw [hbefore]
  rfl

theorem acceptMarker_onlyRedriven (s : State) (cycle : Nat) (sync : Bool) :
    OnlyRedriven s (s.acceptMarker cycle sync) := by
  rw [acceptMarker_eq]
  refine onlyRedriven_settleLamps ((judgeMarker_alarmSide _ s sync).lamps.trans ?_)
  rw [beforeJudgement_frame]
  rfl

/-- The judgement of an accepted marker finds the supervisor the marker arrived at, with the marker recorded
(R126). -/
theorem beforeJudgement_supervision (s : State) (cycle : Nat) :
    (s.beforeJudgement cycle).supervisor = s.supervisor.record cycle s.now ∧
    (s.beforeJudgement cycle).now = s.now ∧ (s.beforeJudgement cycle).generators = s.generators := by
  rw [beforeJudgement_frame]
  exact ⟨rfl, rfl, rfl⟩

/-- An accepted marker judged by the supervision state at its arrival. -/
theorem acceptMarker_judged {s u : State} {cycle : Nat} {sync : Bool} {v : Supervisor}
    (hv : v = s.supervisor.record cycle s.now) (hu : u = (s.beforeJudgement cycle).judgeMarker s sync) :
    (v.state ≠ .inStep → u.generators = s.generators ∧ u.supervisor = v.start s.now) ∧
    (v.state = .inStep → v.isEarly s.now = true → u.generators = s.generators ∧ u.supervisor = v.early) ∧
    (v.state = .inStep → ¬ v.isEarly s.now = true → u.supervisor = v.inWindow s.now ∧
      ∀ c, u.generators.get c =
        if sync = true then realigned s.now (s.generators.get c) else s.generators.get c) := by
  obtain ⟨hrecord, hnow, hfound⟩ := beforeJudgement_supervision s cycle
  rw [← hv] at hrecord
  rw [← hrecord, ← hnow, ← hfound, hu]
  exact ⟨fun h => judgeMarker_start h s sync, fun h he => judgeMarker_early h he s sync,
    fun h he => judgeMarker_inWindow h he s sync⟩

/-- The marker's judgement leaves the number recorded and the stamp's start as its first step set them. -/
theorem acceptMarker_stampBase {s u : State} {cycle : Nat} {sync : Bool}
    (hu : u = (s.beforeJudgement cycle).judgeMarker s sync) :
    u.supervisor.cycle = cycle ∧ u.supervisor.stampFrom = s.now := by
  obtain ⟨hcycle, hfrom⟩ := judgeMarker_stampBase (s.beforeJudgement cycle) s sync
  rw [← hu, (beforeJudgement_supervision s cycle).1] at hcycle hfrom
  exact ⟨hcycle, hfrom⟩

theorem Supervisor.early_eq (v : Supervisor) :
    v.early = { v with skews := if v.skews < v.skewLimit then v.skews + 1 else v.skews } := by
  unfold Supervisor.early
  split <;> rfl

/-- Settles O45: the marker recorded, the silence counted, and the judgement by the state it finds. -/
theorem markerIsJudgedBySupervision : Obligations.MarkerIsJudgedBySupervision := by
  refine ⟨fun x => rfl, fun n dest body s w ha hn hw => ?_⟩
  rw [exec_cycleMarker ha hn, ← hw, State.takeCycle]
  refine ⟨fun hlen => by rw [if_neg hlen], fun hlen v hv => ?_⟩
  rw [if_pos hlen]
  have hclock : w.clock = s.clock := by rw [hw, passedOn_clock]
  have hsupervisor : w.supervisor = s.supervisor := by rw [hw, passedOn_supervisor]
  have hgenerators : w.generators = s.generators := by rw [hw, passedOn_generators]
  have houtstations : w.outstations = s.outstations := by rw [hw, passedOn_outstations]
  have hlimit : w.staleLimit = s.staleLimit := by rw [hw, passedOn_staleLimit]
  rw [← now_congr hclock, ← hsupervisor] at hv
  rw [← now_congr hclock, ← hclock, ← hsupervisor, ← hgenerators, ← houtstations, ← hlimit]
  generalize hsync : (field8 body 2 % 2 == 1) = sync
  have hset : (field8 body 2 % 2 = 1) = (sync = true) := by rw [← hsync, beq_iff_eq]
  simp only [hset]
  have hframe := acceptMarker_frame w (field16 body 0) sync rfl
  have hredriven := acceptMarker_onlyRedriven w (field16 body 0) sync
  obtain ⟨u, hu⟩ : ∃ u, u = (w.beforeJudgement (field16 body 0)).judgeMarker w sync := ⟨_, rfl⟩
  obtain ⟨start, early, inWindow⟩ := acceptMarker_judged hv hu
  obtain ⟨hcycle, hfrom⟩ := acceptMarker_stampBase hu
  rw [← hu] at hframe
  generalize w.acceptMarker (field16 body 0) sync = t at hframe hredriven
  have hjudged : t.supervisor = u.supervisor := by rw [hframe]
  have hcadences : t.generators = u.generators := by rw [hframe]
  have hstate : v.state = w.supervisor.state := by rw [hv]
  rw [← hstate]
  refine ⟨t, rfl, ?frame, fun c _ => ?stamp, fun hnot => ?start, fun r hstep hr => ?inStep, ?silence,
    hredriven⟩
  case frame => rw [hframe]
  case stamp =>
    change (⟨t.supervisor.cycle, min 65535 (c / 1000 - t.supervisor.stampFrom)⟩ : Stamp) = _
    rw [hjudged, hcycle, hfrom]
    rfl
  case start =>
    rw [hjudged, hcadences]
    exact start hnot
  case inStep =>
    have hearly : v.isEarly w.now = true ↔ w.now + v.window < r + v.period := by
      rw [isEarly_iff, show v.reference = some r by rw [hv]; exact hr]
      simp only [Option.some.injEq, exists_eq_left']
    have windowed (h : r + v.period ≤ w.now + v.window) := inWindow hstep (by rw [hearly]; omega)
    rw [hjudged, hcadences, ← v.early_eq]
    exact ⟨fun h => early hstep (hearly.2 h), fun h _ => windowed h, fun h => windowed (by omega)⟩
  case silence =>
    rw [hframe]
    rfl

/-! ### The late bound's expiry (R115, R120, R122) -/

theorem exec_lateBoundExpiry {s : State} (hn : NoGrantDue s) :
    exec .lateBoundExpiry s = .next s.takeLateBound := by
  rw [show exec .lateBoundExpiry s = .next s.granted.takeLateBound from rfl, granted_of_noGrantDue hn]

theorem takeLateBound_of_noSync {s : State} (h : s.supervisor.state = .noSync) : s.takeLateBound = s := by
  rw [State.takeLateBound, h]

theorem takeLateBound_of_reference {s : State} (h : s.supervisor.state ≠ .noSync) {r : Nat}
    (hr : s.supervisor.reference = some r) : s.takeLateBound =
      (s.advanceTo (1000 * (r + s.supervisor.period + s.supervisor.window))).lateBoundExpires r := by
  cases hs : s.supervisor.state with
  | noSync => exact absurd hs h
  | _ =>
    simp only [State.takeLateBound, hs, hr]
    rfl

theorem miss_of_no_limit {v : Supervisor} (h : v.missLimit = 0) : v.miss = v := if_pos h

theorem miss_of_below {v : Supervisor} (h : v.misses + 1 < v.missLimit) :
    v.miss = { v with misses := v.misses + 1 } :=
  (if_neg (by omega)).trans (if_pos h)

theorem miss_of_limit {v : Supervisor} (h0 : v.missLimit ≠ 0) (h : v.missLimit ≤ v.misses + 1) :
    v.miss = { v with misses := v.missLimit, state := .lost } :=
  (if_neg h0).trans (if_neg (Nat.not_lt.2 h))

/-- In LOST the expiry counts nothing (R122). -/
theorem lateBoundExpires_of_lost {s : State} {r : Nat} {v : Supervisor} (h : s.supervisor.state = .lost)
    (hv : v = { s.supervisor with reference := some (r + s.supervisor.period) }) :
    s.lateBoundExpires r = { s with supervisor := v } := by
  rw [State.lateBoundExpires, h, hv]

/-- In IN_STEP an expiry that does not end in LOST counts its miss alone (R120). -/
theorem lateBoundExpires_of_inStep {s : State} {r : Nat} {v : Supervisor}
    (h : s.supervisor.state = .inStep)
    (hv : v = { s.supervisor with reference := some (r + s.supervisor.period) })
    (hmiss : v.miss.state ≠ .lost) : s.lateBoundExpires r = { s with supervisor := v.miss } := by
  subst hv
  rw [State.lateBoundExpires, h]
  exact if_neg hmiss

/-- The miss that ends in LOST causes LOOP_LOST, and the lamps follow (R56, R120). -/
theorem lateBoundExpires_to_lost {s : State} {r : Nat} {v : Supervisor} (h : s.supervisor.state = .inStep)
    (hv : v = { s.supervisor with reference := some (r + s.supervisor.period) })
    (hmiss : v.miss.state = .lost) :
    s.lateBoundExpires r = (State.occur .loopLost { s with supervisor := v.miss }).settleLamps := by
  subst hv
  rw [State.lateBoundExpires, h]
  exact if_pos hmiss

theorem lateBoundExpires_frame (s : State) (r : Nat) : s.lateBoundExpires r = { s with
    supervisor := (s.lateBoundExpires r).supervisor, reports := (s.lateBoundExpires r).reports
    lamps := (s.lateBoundExpires r).lamps } := by
  unfold State.lateBoundExpires
  dsimp only
  repeat' split
  all_goals rfl

/-- Settles O47: the clock at the late bound, then the expiry by the supervision state and the miss limit. -/
theorem lateBoundExpiryCountsAMiss : Obligations.LateBoundExpiryCountsAMiss := by
  intro s hn
  rw [exec_lateBoundExpiry hn]
  refine ⟨fun hs => by rw [takeLateBound_of_noSync hs], fun r v hs hr hv => ?_⟩
  rw [takeLateBound_of_reference hs hr]
  have hstate : v.state = s.supervisor.state := by rw [hv]
  generalize hu : s.advanceTo (1000 * (r + s.supervisor.period + s.supervisor.window)) = u
  have hsame : v = { u.supervisor with reference := some (r + u.supervisor.period) } := by rw [hv, ← hu]; rfl
  have hfound : u.supervisor.state = s.supervisor.state := by rw [← hu]; rfl
  have hreports : u.reports = s.reports := by rw [← hu]; rfl
  have hlamps : u.lamps = s.lamps := by rw [← hu]; rfl
  refine ⟨_, rfl, ?frame, fun hidle => ?idle, fun hstep hbelow => ?miss, fun hstep h0 hlimit => ?lost⟩
  case frame =>
    rw [lateBoundExpires_frame, ← hu]
    rfl
  case idle =>
    have hexpired : u.lateBoundExpires r = { u with supervisor := v } := by
      cases hcase : s.supervisor.state with
      | noSync => exact absurd hcase hs
      | lost => exact lateBoundExpires_of_lost (hfound.trans hcase) hsame
      | inStep =>
        have hnone : v.miss = v := miss_of_no_limit (hidle.resolve_left (by rw [hcase]; decide))
        have hkept := lateBoundExpires_of_inStep (hfound.trans hcase) hsame
          (by rw [hnone, hstate, hcase]; decide)
        rwa [hnone] at hkept
    rw [hexpired]
    exact ⟨rfl, hreports, hlamps⟩
  case miss =>
    have hcounted := miss_of_below hbelow
    rw [lateBoundExpires_of_inStep (hfound.trans hstep) hsame
      (by rw [hcounted]; exact fun h => nomatch (hstate.trans hstep).symm.trans h), hcounted]
    exact ⟨rfl, hreports, hlamps⟩
  case lost =>
    have hlost := miss_of_limit h0 hlimit
    rw [lateBoundExpires_to_lost (hfound.trans hstep) hsame (by rw [hlost]), hlost, Reports.caused_eq]
    refine ⟨rfl, ?_, ?_⟩
    · rw [← hreports]
      rfl
    · exact onlyRedriven_settleLamps (s := s) hlamps

end Sys2Proof.Machine
end

section
/-! What a panel line shows: its active state and the level it drives (R137, R144, R145, R197), LINE WRITE (R146)
and LINE READ (R149). -/

namespace Sys2Proof.Machine

/-! ### The active state of a line (R137, R144, R145, R197) -/

theorem inputActive_iff (l : Line) : l.inputActive = true ↔
    (l.polarity = .activeLow ∧ l.level = some .low) ∨ (l.polarity = .activeHigh ∧ l.level = some .high) := by
  unfold Line.inputActive
  cases l.level with
  | none => simp
  | some v => cases l.polarity <;> cases v <;> simp [Polarity.active]

/-- The FAULT level: a condition is both latched and in the report mask (R197). -/
theorem faultLevel_iff (s : State) : s.faultLevel = true ↔
    ∃ k, k < 8 ∧ s.reports.latched.getLsbD k = true ∧ s.reports.mask.getLsbD k = true := by
  have hbits : (∀ k, k < 8 → (s.reports.latched &&& s.reports.mask).getLsbD k = false) ↔
      s.reports.latched &&& s.reports.mask = 0 :=
    ⟨fun h => BitVec.eq_of_getLsbD_eq fun k hk => (h k hk).trans BitVec.getLsbD_zero.symm,
      fun h k _ => by rw [h]; exact BitVec.getLsbD_zero⟩
  simp only [State.faultLevel, bne_iff_ne, ne_eq, ← hbits, BitVec.getLsbD_and, not_forall,
    Bool.not_eq_false, Bool.and_eq_true, exists_prop]

theorem attention_iff (s : State) : s.attention = true ↔
    0 < s.alarms.unack ∧ ∃ ends, s.generators.alert.phase = some (.on, ends) := by
  unfold State.attention
  rw [Bool.and_eq_true, decide_eq_true_iff]
  refine and_congr_right fun _ => ?_
  split
  next ends hphase => exact iff_of_true rfl ⟨ends, hphase⟩
  next hother => exact iff_of_false Bool.false_ne_true fun ⟨ends, hphase⟩ => hother ends hphase

/-- The model's active state of a line is that of R137 and R144. -/
theorem lineActive_iff (s : State) (l : Line) : s.lineActive l = true ↔ Active s l := by
  unfold State.lineActive Active
  cases l.direction with
  | input => exact inputActive_iff l
  | output =>
    cases l.source with
    | latch => exact Iff.rfl
    | horn => exact beq_iff_eq
    | fault => exact faultLevel_iff s
    | alarmPresent => exact decide_eq_true_iff
    | attention => exact attention_iff s

/-! ### The level an OUTPUT line drives (R144) -/

theorem Polarity.drive_eq (p : Polarity) (active : Bool) :
    p.drive active = if active = true ↔ p = .activeHigh then .high else .low := by
  cases p <;> cases active <;> rfl

theorem drivenPin_of_input {l : Line} (h : l.direction = .input) (s : State) : s.drivenPin l = none := by
  rw [State.drivenPin, h]

theorem drivenPin_of_output {s : State} {l : Line} (h : l.direction = .output) {level : PinLevel}
    (hlevel : l.polarity.drive (s.lineActive l) = level) : s.drivenPin l = some level := by
  rw [State.lineActive, h] at hlevel
  rw [State.drivenPin, h, ← hlevel]

/-! ### LINE READ (R149) -/

/-- The level LINE READ answers: the debounced level of an INPUT line, the driven one of an OUTPUT line. -/
def State.shownPin (s : State) (l : Line) : Option PinLevel :=
  match l.direction with
  | .input => l.level
  | .output => s.drivenPin l

/-- The code of a level that may be absent (R200, 11.4.4). -/
def pinCode : Option PinLevel → Nat
  | none => 0
  | some .low => 1
  | some .high => 2

theorem pinCode_le (p : Option PinLevel) : pinCode p ≤ 2 := by
  rcases p with _ | (_ | _) <;> decide

theorem Direction.code_spec (d : Direction) : d.code ≤ 1 ∧ (d.code = 1 ↔ d = .output) := by
  cases d <;> decide

theorem one_spec (b : Bool) : one b ≤ 1 ∧ (one b = 1 ↔ b = true) := by
  cases b <;> decide

theorem lineByte_eq (s : State) (l : Line) : s.lineByte l =
    byteOf (l.direction.code + 2 * pinCode (s.shownPin l) + 8 * one (s.lineActive l)) := by
  unfold State.lineByte State.shownPin pinCode
  cases l.direction <;> rfl

/-- The fields of a line's byte. -/
theorem lineByte_fields (s : State) (l : Line) :
    (s.lineByte l).toNat < 16 ∧ ((s.lineByte l).toNat % 2 = 1 ↔ l.direction = .output) ∧
    (s.lineByte l).toNat / 2 % 4 = pinCode (s.shownPin l) ∧
    ((s.lineByte l).toNat / 8 % 2 = 1 ↔ s.lineActive l = true) := by
  have hpin := pinCode_le (s.shownPin l)
  obtain ⟨hdirection, houtput⟩ := l.direction.code_spec
  obtain ⟨hactive, htrue⟩ := one_spec (s.lineActive l)
  rw [lineByte_eq, byteOf_toNat, ← houtput, ← htrue]
  omega

theorem field8_lineRead (s : State) (i : Fin 8) :
    field8 (s.panel.lines.toList.map s.lineByte) i.val = (s.lineByte (s.line i)).toNat := by
  have hi : i.val < (s.panel.lines.toList.map s.lineByte).length := by simp
  rw [field8, List.getD_eq_getElem _ _ hi, List.getElem_map]
  rfl

/-- What LINE READ answers of an INPUT line: it drives nothing, and its debounced level is told. -/
theorem lineByte_input {s : State} {l : Line} (h : l.direction = .input) : s.drivenPin l = none ∧
    (l.level = none → (s.lineByte l).toNat / 2 % 4 = 0) ∧
    (l.level = some .low → (s.lineByte l).toNat / 2 % 4 = 1) ∧
    (l.level = some .high → (s.lineByte l).toNat / 2 % 4 = 2) := by
  obtain ⟨-, -, hpin, -⟩ := lineByte_fields s l
  rw [hpin, State.shownPin, h]
  exact ⟨drivenPin_of_input h s, fun hl => by rw [hl]; rfl, fun hl => by rw [hl]; rfl,
    fun hl => by rw [hl]; rfl⟩

/-- What LINE READ answers of an OUTPUT line: the level its polarity gives for its active state (R144). -/
theorem lineByte_output {s : State} {l : Line} (h : l.direction = .output) :
    ((Active s l ↔ l.polarity = .activeHigh) →
      s.drivenPin l = some .high ∧ (s.lineByte l).toNat / 2 % 4 = 2) ∧
    (¬ (Active s l ↔ l.polarity = .activeHigh) →
      s.drivenPin l = some .low ∧ (s.lineByte l).toNat / 2 % 4 = 1) := by
  obtain ⟨-, -, hpin, -⟩ := lineByte_fields s l
  have hshown : s.shownPin l = s.drivenPin l := by rw [State.shownPin, h]
  rw [hpin, hshown, ← lineActive_iff]
  refine ⟨fun hhigh => ?_, fun hlow => ?_⟩
  · rw [drivenPin_of_output h ((Polarity.drive_eq _ _).trans (if_pos hhigh))]
    exact ⟨rfl, rfl⟩
  · rw [drivenPin_of_output h ((Polarity.drive_eq _ _).trans (if_neg hlow))]
    exact ⟨rfl, rfl⟩

/-- Settles O43: the latches of the mask written; the eight lines answered, each by its byte. -/
theorem lineWriteAndLineReadTheLines : Obligations.LineWriteAndLineReadTheLines := by
  intro h m v s ha
  have hwrite : exec (.lineWrite h [m, v]) s = .next ((s.received.writeLatches m v).answered h 0x61 []) :=
    arriveCommand_answered ha (code := 0x61) rfl rfl rfl
  obtain ⟨u, hread, hans⟩ := arriveCommand_refused ha (code := 0x62) (params := []) (r := .ok)
    (data := s.panel.lines.toList.map s.lineByte) rfl rfl rfl
  refine ⟨_, u, _, hwrite, hread, rfl, heard_of_received ha rfl, answered_oneReply rfl, rfl, rfl,
    fun i => ?written, hans, by simp, fun i => ?shown⟩
  case written =>
    refine (writeLatches_line s.received m v i).trans ?_
    split <;> rfl
  case shown =>
    rw [field8_lineRead, ← lineActive_iff]
    obtain ⟨hsmall, hdirection, -, hactive⟩ := lineByte_fields s (s.line i)
    exact ⟨hdirection, hactive, hsmall, lineByte_input, by rw [lineActive_iff]; exact lineByte_output⟩

end Sys2Proof.Machine
end

section
/-! Pin changes and debounce (R139, R140), and the press of a line with its function (R141), lamp test following
(R142). -/

namespace Sys2Proof.Machine

/-! ### The lamps and lamp test (R108, R142) -/

/-- Nothing of the Lamp Drive Unit changes but what the channels show. -/
structure LampsAlike (s t : State) : Prop where
  unit : t.lamps = { s.lamps with channels := t.lamps.channels }
  kept : ∀ (c : Nat) (h : c < 256), t.lamps.channels[c].kept = s.lamps.channels[c].kept

namespace LampsAlike

theorem same {s t : State} (h : t.lamps = s.lamps) : LampsAlike s t :=
  ⟨by rw [h], fun _ _ => by simp only [h]⟩

theorem settling {s t : State} (h : t.lamps = s.lamps) : LampsAlike s t.settleLamps :=
  ⟨(onlyRedriven_settleLamps h).1, (onlyRedriven_settleLamps h).2.2⟩

end LampsAlike

theorem Sweep.follow_eq (w : Sweep) (lampTest : Bool) (ends : Nat) : w.follow lampTest ends =
    { w with run := if lampTest = true then .paused else match w.run with
        | .paused => .running ends
        | .running d => .running d } := by
  obtain ⟨bank, step, run, tag, dark, own⟩ := w
  cases run <;> cases lampTest <;> rfl

theorem followLampTest_follows (s : State) : LampTestFollows s.followLampTest :=
  lampTestHeld_iff s

/-- Following lamp test after a change that leaves the rest of the lamps alike (R108, R142). -/
theorem followLampTest_lampsFollow {s t : State} (h : LampsAlike s t) : LampsFollow s t.followLampTest where
  same := by
    have hfollowed : t.followLampTest.lamps = { t.lamps with
      channels := t.followLampTest.lamps.channels, sweep := t.followLampTest.lamps.sweep } := rfl
    rw [hfollowed, h.unit]
  settled := settleLamps_settled _
  kept c hc := (settleLamps_kept _ c hc).trans (h.kept c hc)
  sweep := by
    have hsweep : t.lamps.sweep = s.lamps.sweep := by rw [h.unit]
    rw [← hsweep]
    exact congrArg (t.lamps.sweep.map ·) (funext fun w => w.follow_eq _ _)

/-! ### A press (R141, R150) -/

theorem press_of_idle {s : State} {l : Line} (h : l.function = .none ∨ s.port.station = none) (i : Fin 8) :
    s.press i l = s := by
  refine if_pos (h.imp_right fun hn => ?_)
  rw [State.assigned, hn]
  exact Bool.false_ne_true

theorem press_of_assigned {s : State} {l : Line} (hf : l.function ≠ .none) (hs : s.port.station.isSome)
    (i : Fin 8) : s.press i l = (s.record (.key i.val l.function l.group)).performKey l :=
  if_neg fun h => h.elim hf fun hn => hn hs

/-- The functions by name: two acknowledge a scope, one silences the horn, three do nothing more. -/
theorem performKey_cases (l : Line) (s : State) :
    (∃ scope, s.performKey l = s.acknowledgeAll scope) ∨ s.performKey l = s.silenceHorn ∨
      s.performKey l = s := by
  unfold State.performKey
  cases l.function with
  | ackSection => exact .inl ⟨_, rfl⟩
  | ackGroup => exact .inl ⟨_, rfl⟩
  | silence => exact .inr (.inl rfl)
  | none => exact .inr (.inr rfl)
  | lampTest => exact .inr (.inr rfl)
  | report => exact .inr (.inr rfl)

theorem performKey_lampsAlike (l : Line) (s : State) : LampsAlike s (s.performKey l) := by
  rcases performKey_cases l s with ⟨scope, h⟩ | h | h <;> rw [h]
  · exact .settling (acknowledgeKeys_alarmSide _ s).lamps
  · exact .same rfl
  · exact .same rfl

theorem press_lampsAlike (s : State) (i : Fin 8) (l : Line) : LampsAlike s (s.press i l) := by
  unfold State.press
  split
  · exact .same rfl
  · have h := performKey_lampsAlike l (s.record (.key i.val l.function l.group))
    exact ⟨h.unit, h.kept⟩

/-- A press moves the alarm side, and the lamps with it. -/
theorem press_frame (s : State) (i : Fin 8) (l : Line) : s.press i l = { s with
    points := (s.press i l).points, alarms := (s.press i l).alarms, groups := (s.press i l).groups
    reports := (s.press i l).reports, lamps := (s.press i l).lamps } := by
  unfold State.press
  split
  · rfl
  · rcases performKey_cases l (s.record (.key i.val l.function l.group)) with ⟨scope, h⟩ | h | h <;> rw [h]
    · rw [acknowledgeAll_frame]
      rfl
    · rfl
    · rfl

/-! ### The expiry of a debounce timer (R139, R140) -/

/-- An unchanged level only drops the timer (R139). -/
theorem debounceExpires_of_same {s : State} {i : Fin 8} (h : (s.line i).level = some (s.line i).pin) :
    s.debounceExpires i = s.modifyLine i Line.dropTimer := by
  simp only [State.debounceExpires, h, if_true]

/-- A level taken anew: a press where the line had one and becomes active by it; lamp test follows
(R140 to R142). -/
theorem debounceExpires_of_changed {s : State} {i : Fin 8} (h : (s.line i).level ≠ some (s.line i).pin) :
    s.debounceExpires i =
      (if (s.line i).level.isSome ∧ (s.line i).polarity.active (s.line i).pin = true
        then (s.modifyLine i Line.debounced).press i (s.line i)
        else s.modifyLine i Line.debounced).followLampTest := by
  unfold State.debounceExpires
  dsimp only
  split
  next hl => rw [hl, if_neg (fun hp => Bool.false_ne_true hp.1)]
  next v hl =>
    rw [hl] at h ⊢
    rw [if_neg (fun hv => h (congrArg some hv))]
    simp only [Option.isSome_some, true_and, apply_ite State.followLampTest]

/-- A settling line, a release, and a press that performs nothing (R140, R141, R150). -/
theorem debounceExpires_of_quiet {s : State} {i : Fin 8} (h : (s.line i).level ≠ some (s.line i).pin)
    (hq : (s.line i).level = none ∨ (s.line i).polarity.active (s.line i).pin = false ∨
      (s.line i).function = .none ∨ s.port.station = none) :
    s.debounceExpires i = (s.modifyLine i Line.debounced).followLampTest := by
  rw [debounceExpires_of_changed h]
  split
  next hpressed =>
    obtain ⟨hl, hactive⟩ := hpressed
    have hidle : (s.line i).function = .none ∨ s.port.station = none := by
      rcases hq with hn | hn | hn
      · rw [hn] at hl; exact absurd hl Bool.false_ne_true
      · rw [hn] at hactive; exact absurd hactive Bool.false_ne_true
      · exact hn
    rw [press_of_idle (s := s.modifyLine i Line.debounced) hidle]
  next => rfl

/-- A press that performs a function: its KEY record first (R141). -/
theorem debounceExpires_of_press {s : State} {i : Fin 8} (hl : (s.line i).level.isSome)
    (h : (s.line i).level ≠ some (s.line i).pin)
    (ha : (s.line i).polarity.active (s.line i).pin = true) (hs : s.port.station.isSome)
    (hf : (s.line i).function ≠ .none) : s.debounceExpires i =
      (((s.modifyLine i Line.debounced).record
        (.key i.val (s.line i).function (s.line i).group)).performKey (s.line i)).followLampTest := by
  rw [debounceExpires_of_changed h, if_pos ⟨hl, ha⟩,
    press_of_assigned (s := s.modifyLine i Line.debounced) hf hs]

/-- What stands before lamp test follows a level taken anew. -/
theorem debounceExpires_changed {s : State} {i : Fin 8} (h : (s.line i).level ≠ some (s.line i).pin) :
    ∃ u, s.debounceExpires i = u.followLampTest ∧ LampsAlike s u ∧ u = { s with
      points := u.points, alarms := u.alarms, groups := u.groups, reports := u.reports, lamps := u.lamps
      panel := (s.modifyLine i Line.debounced).panel } := by
  refine ⟨_, debounceExpires_of_changed h, ?_⟩
  split
  · have halike := press_lampsAlike (s.modifyLine i Line.debounced) i (s.line i)
    refine ⟨⟨halike.unit, halike.kept⟩, ?_⟩
    rw [press_frame]
    rfl
  · exact ⟨.same rfl, rfl⟩

theorem debounceExpires_frame (s : State) (i : Fin 8) : s.debounceExpires i = { s with
    points := (s.debounceExpires i).points, alarms := (s.debounceExpires i).alarms
    groups := (s.debounceExpires i).groups, reports := (s.debounceExpires i).reports
    lamps := (s.debounceExpires i).lamps, panel := (s.debounceExpires i).panel } := by
  by_cases h : (s.line i).level = some (s.line i).pin
  · rw [debounceExpires_of_same h]
    rfl
  · obtain ⟨u, hu, -, hframe⟩ := debounceExpires_changed h
    rw [hu, hframe]
    rfl

/-- The expiry touches its own line, and not the debounce time. -/
theorem debounceExpires_lines (s : State) (i : Fin 8) :
    (s.debounceExpires i).panel.debounce = s.panel.debounce ∧
      ∀ j, j ≠ i → (s.debounceExpires i).line j = s.line j := by
  have hothers (f : Line → Line) {j : Fin 8} (hj : j ≠ i) : (s.modifyLine i f).line j = s.line j :=
    (modifyLine_line s i j f).trans (if_neg hj)
  by_cases h : (s.line i).level = some (s.line i).pin
  · rw [debounceExpires_of_same h]
    exact ⟨rfl, fun j => hothers _⟩
  · obtain ⟨u, hu, -, hframe⟩ := debounceExpires_changed h
    rw [hu, hframe]
    exact ⟨rfl, fun j => hothers _⟩

/-- A level taken anew stands in the line's record, lamp test follows it, and the lamps follow both. -/
theorem debounceExpires_follows {s : State} {i : Fin 8} (h : (s.line i).level ≠ some (s.line i).pin) :
    (s.debounceExpires i).line i = (s.line i).debounced ∧ LampTestFollows (s.debounceExpires i) ∧
      LampsFollow s (s.debounceExpires i) := by
  obtain ⟨u, hu, halike, hframe⟩ := debounceExpires_changed h
  rw [hu]
  refine ⟨?_, followLampTest_follows u, followLampTest_lampsFollow halike⟩
  rw [hframe]
  exact (modifyLine_line s i i _).trans (if_pos rfl)

/-! ### The rows PIN_CHANGE and DEBOUNCE_EXPIRY -/

theorem pinBecomes_eq (level : PinLevel) (now : Nat) (l : Line) : l.pinBecomes level now =
    if l.pin = level then l else { l with
      pin := level, timer := if l.direction = .input then some now else l.timer } := by
  unfold Line.pinBecomes
  cases l.direction <;> rfl

theorem exec_pinChange {s : State} (hn : NoGrantDue s) (i : Fin 8) (level : PinLevel) :
    exec (.pinChange i level) s = .next (s.modifyLine i (·.pinBecomes level s.now)) := by
  rw [show exec (.pinChange i level) s =
    .next (s.granted.modifyLine i (·.pinBecomes level s.granted.now)) from rfl, granted_of_noGrantDue hn]

theorem exec_debounceExpiry {s : State} (hn : NoGrantDue s) (i : Fin 8) :
    exec (.debounceExpiry i) s = .next (s.takeDebounce i) := by
  rw [show exec (.debounceExpiry i) s = .next (s.granted.takeDebounce i) from rfl, granted_of_noGrantDue hn]

theorem takeDebounce_of_none {s : State} {i : Fin 8} (h : (s.line i).timer = none) : s.takeDebounce i = s := by
  rw [State.takeDebounce, State.debounceDue, h]
  rfl

theorem takeDebounce_of_timer {s : State} {i : Fin 8} {m : Nat} (h : (s.line i).timer = some m) :
    s.takeDebounce i = (s.advanceTo (1000 * (m + s.panel.debounce))).debounceExpires i := by
  rw [State.takeDebounce, State.debounceDue, h]
  rfl

/-- What a press performs past its KEY record, which stands in `u` (R72, R79, R80, R141). -/
theorem performKey_followed {s u : State} {i : Fin 8} {l : Line} (hk : KeysRise s)
    (hu : u = s.record (.key i.val l.function l.group)) {t : State}
    (ht : t = (((s.modifyLine i Line.debounced).record
      (.key i.val l.function l.group)).performKey l).followLampTest) :
    (l.function = .lampTest ∨ l.function = .report → t = { u with panel := t.panel, lamps := t.lamps }) ∧
    (l.function = .silence → t = { u with
      panel := t.panel, lamps := t.lamps
      alarms := { s.alarms with
        horn := if s.alarms.horn = .sounding then .silenced else s.alarms.horn } }) ∧
    (∀ scope : PointEntry → Bool,
      (l.function = .ackSection ∧ scope = fun _ => true) ∨
        (l.function = .ackGroup ∧ scope = fun e => e.group == l.group) →
      t = { u with
        panel := t.panel, lamps := t.lamps, points := t.points, alarms := t.alarms
        groups := t.groups, reports := t.reports } ∧ Acknowledged u t scope) := by
  subst hu
  refine ⟨fun hf => ?nothing, fun hf => ?silence, fun scope hscope => ?acknowledge⟩
  case nothing =>
    have hkey (v : State) : v.performKey l = v := by
      rcases hf with hf | hf <;> rw [State.performKey, hf]
    rw [ht, hkey]
    rfl
  case silence =>
    have hkey (v : State) : v.performKey l = v.silenceHorn := by rw [State.performKey, hf]
    rw [ht, hkey, ← AlarmUnit.silence_eq]
    rfl
  case acknowledge =>
    have hkey (v : State) : v.performKey l = v.acknowledgeAll scope := by
      rcases hscope with ⟨hf, rfl⟩ | ⟨hf, rfl⟩ <;> rw [State.performKey, hf] <;> rfl
    rw [hkey] at ht
    generalize hr : (s.modifyLine i Line.debounced).record (.key i.val l.function l.group) = r at ht
    have hacked := acknowledgeKeys_acknowledged (s := r) (by rw [← hr]; exact hk.distinct) scope
    constructor
    · rw [ht, acknowledgeAll_frame, ← hr]
      rfl
    · subst hr ht
      exact { hacked with }

/-- Settles O51: the pin's change; the timer's expiry by what it does to the line, then by what the press
performs. -/
theorem pinsAreDebouncedAndPressesPerformed : Obligations.PinsAreDebouncedAndPressesPerformed := by
  rintro i level s l hn hk rfl
  refine ⟨⟨_, exec_pinChange hn i level, rfl, fun j hj => ?other, ?changed⟩, fun hnone => ?idle,
    fun m hm => ?expiry⟩
  case other => exact (modifyLine_line s i j _).trans (if_neg hj)
  case changed => exact ((modifyLine_line s i i _).trans (if_pos rfl)).trans (pinBecomes_eq _ _ _)
  case idle => rw [exec_debounceExpiry hn, takeDebounce_of_none hnone]
  case expiry =>
    rw [exec_debounceExpiry hn, takeDebounce_of_timer hm]
    generalize hw : s.advanceTo (1000 * (m + s.panel.debounce)) = w
    have hline : w.line i = s.line i := by rw [← hw]; rfl
    have hstation : w.port.station = s.port.station := by rw [← hw]; rfl
    have hframe := debounceExpires_frame w i
    have hclock : (w.debounceExpires i).clock = w.clock := by rw [hframe]
    obtain ⟨htime, hothers⟩ := debounceExpires_lines w i
    refine ⟨_, rfl, ?clock, ?time, fun j hj => ?others, fun hsame => ?same, fun hnew => ?new,
      fun hquiet => ?quiet, fun u hl hnew ha hs hu => ?press⟩
    case clock => rw [hclock, ← hw]; rfl
    case time => rw [htime, ← hw]; rfl
    case others => rw [hothers j hj, ← hw]; rfl
    case same =>
      rw [← hline] at hsame ⊢
      rw [debounceExpires_of_same hsame, ← hw]
      exact ⟨rfl, (modifyLine_line _ i i _).trans (if_pos rfl)⟩
    case new =>
      rw [← hline] at hnew ⊢
      obtain ⟨htaken, hlamptest, hlamps⟩ := debounceExpires_follows hnew
      exact ⟨htaken, hlamptest, by subst hw; exact { hlamps with }⟩
    case quiet =>
      rw [← hline, ← hstation] at hquiet
      by_cases hsame : (w.line i).level = some (w.line i).pin
      · rw [debounceExpires_of_same hsame, ← hw]
        rfl
      · rw [debounceExpires_of_quiet hsame hquiet, ← hw]
        rfl
    case press =>
      have hsupervisor : (w.debounceExpires i).supervisor = w.supervisor := by rw [hframe]
      rw [hclock, stamp_congr hclock hsupervisor, Reports.joined_eq] at hu
      have hrecord : u = w.record (.key i.val (s.line i).function (s.line i).group) := by
        rw [hu, ← hw]
        rfl
      by_cases hf : (s.line i).function = .none
      · simp [hf]
      · have hpress := debounceExpires_of_press (s := w) (i := i) (by rwa [hline]) (by rwa [hline])
          (by rwa [hline]) (by rwa [hstation]) (by rwa [hline])
        rw [hline] at hpress
        have hdone := performKey_followed (s := w) (by rw [← hw]; exact hk) hrecord hpress
        rw [show w.alarms = s.alarms by rw [← hw]; rfl] at hdone
        exact hdone

end Sys2Proof.Machine
end

section
/-! LINE SET (R138, R147, R148): the checks, the record stored, and the lines that the new debounce time makes due,
debounced as their rows debounce them. -/

namespace Sys2Proof.Machine

/-! ### The fields of LINE SET (R147) -/

theorem directionOfCode_eq_none {n : Nat} (h : 1 < n) : directionOfCode n = none := by
  obtain ⟨m, rfl⟩ : ∃ m, n = m + 2 := ⟨n - 2, by omega⟩
  rfl

theorem polarityOfCode_eq_none {n : Nat} (h : 1 < n) : polarityOfCode n = none := by
  obtain ⟨m, rfl⟩ : ∃ m, n = m + 2 := ⟨n - 2, by omega⟩
  rfl

theorem inputFunctionOfCode_eq_none {n : Nat} (h : 5 < n) : inputFunctionOfCode n = none := by
  obtain ⟨m, rfl⟩ : ∃ m, n = m + 6 := ⟨n - 6, by omega⟩
  rfl

theorem inputFunctionOfCode_eq_ackGroup {n : Nat} : inputFunctionOfCode n = some .ackGroup ↔ n = 2 := by
  unfold inputFunctionOfCode
  split <;> simp_all

theorem outputSourceOfCode_eq_none {n : Nat} (h : 4 < n) : outputSourceOfCode n = none := by
  obtain ⟨m, rfl⟩ : ∃ m, n = m + 5 := ⟨n - 5, by omega⟩
  rfl

theorem lineField_eq_none {n : Nat} (h : 7 < n) : lineField n = none :=
  dif_neg (Nat.not_lt.2 h)

theorem lineField_eq_some {n : Nat} {i : Fin 8} (h : n = i.val) : lineField n = some i := by
  subst h
  exact dif_pos i.isLt

/-- A field that is none of its values, or ACK_GROUP with a group out of range, leaves no setting. -/
theorem lineSettingField_eq_none {b : List Byte} (h : 1 < field8 b 1 ∨ 1 < field8 b 2 ∨ 5 < field8 b 3 ∨
    4 < field8 b 5 ∨ (field8 b 3 = 2 ∧ ¬ (1 ≤ field8 b 4 ∧ field8 b 4 ≤ 16))) :
    lineSettingField b = none := by
  unfold lineSettingField
  split
  next dir pol fn src hdir hpol hfn hsrc =>
    rcases h with h | h | h | h | ⟨hcode, hgroup⟩
    · exact nomatch hdir.symm.trans (directionOfCode_eq_none h)
    · exact nomatch hpol.symm.trans (polarityOfCode_eq_none h)
    · exact nomatch hfn.symm.trans (inputFunctionOfCode_eq_none h)
    · exact nomatch hsrc.symm.trans (outputSourceOfCode_eq_none h)
    · have hack : fn = .ackGroup := Option.some.inj (hfn.symm.trans (inputFunctionOfCode_eq_ackGroup.2 hcode))
      rw [if_pos hack, if_neg hgroup]
  next => rfl

theorem lineSettingField_eq_some {b : List Byte} {dir : Direction} {pol : Polarity} {fn : InputFunction}
    {src : OutputSource} {g : Nat} (hdir : directionOfCode (field8 b 1) = some dir)
    (hpol : polarityOfCode (field8 b 2) = some pol) (hfn : inputFunctionOfCode (field8 b 3) = some fn)
    (hsrc : outputSourceOfCode (field8 b 5) = some src)
    (hg : g = if fn = .ackGroup then field8 b 4 else 0) (hrange : fn = .ackGroup → 1 ≤ g ∧ g ≤ 16) :
    lineSettingField b = some ⟨dir, pol, fn, g, src⟩ := by
  simp only [lineSettingField, hdir, hpol, hfn, hsrc]
  by_cases hack : fn = .ackGroup
  · have hin := hrange hack
    rw [if_pos hack] at hg ⊢
    subst hg
    rw [if_pos hin]
  · rw [if_neg hack] at hg ⊢
    rw [hg]

/-- The checks of LINE SET: the line, then the fields of its record. -/
theorem takeLineSet_refused {b : List Byte} (h : 7 < field8 b 0 ∨ lineSettingField b = none) (s : State) :
    takeLineSet b s = .refuse s .badParam := by
  unfold takeLineSet
  split
  next hi hf =>
    rcases h with h | h
    · exact nomatch hi.symm.trans (lineField_eq_none h)
    · exact nomatch hf.symm.trans h
  next => rfl

theorem takeLineSet_accepted {b : List Byte} {i : Fin 8} {f : LineSetting} (hi : field8 b 0 = i.val)
    (hf : lineSettingField b = some f) (s : State) :
    takeLineSet b s = .ok (s.setLine i f (debounceField b)) := by
  simp only [takeLineSet, lineField_eq_some hi, hf]

/-- A turn of direction drops the level; turned to INPUT the line begins settling (R148). -/
theorem configure_eq (f : LineSetting) (now : Nat) (l : Line) : l.configure f now = { l with
    direction := f.direction, polarity := f.polarity, function := f.function, group := f.group
    source := f.source
    level := if l.direction = f.direction then l.level else none
    timer := if l.direction = f.direction then l.timer
      else if f.direction = .input then some now else none } := by
  unfold Line.configure
  cases hold : l.direction <;> cases hnew : f.direction <;> rfl

/-! ### A frame in transmission has no say in a debounce -/

/-- The state with another frame, or none, in transmission. -/
def State.withSending (x : Option (Frame × Nat)) (s : State) : State :=
  { s with port := { s.port with sending := x } }

theorem followLampTest_withSending (s : State) (x : Option (Frame × Nat)) :
    (s.withSending x).followLampTest = s.followLampTest.withSending x := rfl

theorem acknowledge_withSending (s : State) (k : Key) (x : Option (Frame × Nat)) :
    (s.withSending x).acknowledge k = (s.acknowledge k).withSending x := by
  unfold State.acknowledge
  rw [show (s.withSending x).point k = s.point k from rfl]
  repeat' split
  all_goals rfl

theorem acknowledgeAll_withSending (s : State) (scope : PointEntry → Bool) (x : Option (Frame × Nat)) :
    (s.withSending x).acknowledgeAll scope = (s.acknowledgeAll scope).withSending x := by
  have hfold (l : List Key) (u : State) : l.foldl (fun s k => s.acknowledge k) (u.withSending x) =
      (l.foldl (fun s k => s.acknowledge k) u).withSending x :=
    List.foldl_hom (State.withSending x) fun u k => acknowledge_withSending u k x
  unfold State.acknowledgeAll
  rw [show (s.withSending x).toAcknowledge scope = s.toAcknowledge scope from rfl, hfold]
  rfl

theorem performKey_withSending (s : State) (l : Line) (x : Option (Frame × Nat)) :
    (s.withSending x).performKey l = (s.performKey l).withSending x := by
  unfold State.performKey
  cases l.function with
  | ackSection => exact acknowledgeAll_withSending s _ x
  | ackGroup => exact acknowledgeAll_withSending s _ x
  | silence => rfl
  | none => rfl
  | lampTest => rfl
  | report => rfl

theorem press_withSending (s : State) (i : Fin 8) (l : Line) (x : Option (Frame × Nat)) :
    (s.withSending x).press i l = (s.press i l).withSending x := by
  unfold State.press
  rw [show (s.withSending x).assigned = s.assigned from rfl]
  split
  · rfl
  · exact performKey_withSending (s.record (.key i.val l.function l.group)) l x

theorem debounceExpires_withSending (s : State) (i : Fin 8) (x : Option (Frame × Nat)) :
    (s.withSending x).debounceExpires i = (s.debounceExpires i).withSending x := by
  by_cases h : (s.line i).level = some (s.line i).pin
  · rw [debounceExpires_of_same h]
    exact debounceExpires_of_same (s := s.withSending x) h
  · rw [debounceExpires_of_changed h, debounceExpires_of_changed (s := s.withSending x) h,
      show (s.withSending x).line i = s.line i from rfl]
    split
    · rw [← followLampTest_withSending, ← press_withSending]
      rfl
    · rfl

/-! ### The lines that are due, debounced (R138) -/

/-- One step of the debounce of all lines that are due: line by line (R138). -/
def State.debounceIfOver (s : State) (i : Fin 8) : State :=
  if s.debounceOver i then s.debounceExpires i else s

theorem debounceAllOver_eq (s : State) : s.debounceAllOver = allLines.foldl State.debounceIfOver s := rfl

theorem debounceIfOver_withSending (s : State) (i : Fin 8) (x : Option (Frame × Nat)) :
    (s.withSending x).debounceIfOver i = (s.debounceIfOver i).withSending x := by
  unfold State.debounceIfOver
  rw [show (s.withSending x).debounceOver i = s.debounceOver i from rfl, debounceExpires_withSending]
  split <;> rfl

theorem debounceOver_iff (s : State) (i : Fin 8) : s.debounceOver i = true ↔
    ∃ m, (s.line i).timer = some m ∧ m + s.panel.debounce ≤ s.now := by
  unfold State.debounceOver State.debounceDue
  cases (s.line i).timer <;> simp

/-- The expiry of one line makes no other line due, and none not due. -/
theorem debounceOver_debounceExpires (s : State) {i j : Fin 8} (h : j ≠ i) :
    (s.debounceExpires i).debounceOver j = s.debounceOver j := by
  obtain ⟨htime, hothers⟩ := debounceExpires_lines s i
  have hnow : (s.debounceExpires i).now = s.now := now_congr (by rw [debounceExpires_frame])
  rw [Bool.eq_iff_iff, debounceOver_iff, debounceOver_iff, hothers j h, htime, hnow]

theorem noGrantDue_of_sending {s : State} (h : s.port.sending.isSome) : NoGrantDue s := .inl h

/-- The row of a line that is due, while a frame is in transmission: its expiry, at the moment standing. -/
theorem exec_debounceExpiry_of_over {s : State} (hs : s.port.sending.isSome) {i : Fin 8}
    (h : s.debounceOver i = true) : exec (.debounceExpiry i) s = .next (s.debounceExpires i) := by
  obtain ⟨m, hm, hreached⟩ := (debounceOver_iff s i).1 h
  rw [exec_debounceExpiry (noGrantDue_of_sending hs), takeDebounce_of_timer hm, advanceTo_of_now hreached]

/-- While no grant can come between them, the rows of the lines that are due debounce them one by one. -/
theorem execAll_debounceExpiry (l : List (Fin 8)) (hl : l.Nodup) (s : State) (hs : s.port.sending.isSome) :
    execAll ((l.filter s.debounceOver).map .debounceExpiry) s = .next (l.foldl State.debounceIfOver s) := by
  induction l generalizing s with
  | nil => rfl
  | cons i l ih =>
    obtain ⟨hi, hl⟩ := List.nodup_cons.1 hl
    rw [List.foldl_cons, State.debounceIfOver]
    by_cases hover : s.debounceOver i = true
    · have hport : (s.debounceExpires i).port = s.port := by rw [debounceExpires_frame]
      have hsame : l.filter s.debounceOver = l.filter (s.debounceExpires i).debounceOver :=
        List.filter_congr fun j hj =>
          (debounceOver_debounceExpires s (ne_of_mem_of_not_mem hj hi)).symm
      rw [List.filter_cons_of_pos hover, List.map_cons, execAll, exec_debounceExpiry_of_over hs hover, hsame,
        if_pos hover]
      exact ih hl _ (by rw [hport]; exact hs)
    · rw [List.filter_cons_of_neg hover, if_neg hover]
      exact ih hl s hs

/-- The debounce of all lines that are due, as their rows do it behind a frame in transmission. -/
theorem execAll_debounceAllOver (s : State) (busy : Frame × Nat) :
    execAll ((allLines.filter s.debounceOver).map .debounceExpiry) (s.withSending (some busy)) =
      .next (s.debounceAllOver.withSending (some busy)) := by
  have hrun := execAll_debounceExpiry allLines (by decide) (s.withSending (some busy)) rfl
  rw [List.foldl_hom (State.withSending (some busy)) fun u i => debounceIfOver_withSending u i _,
    ← debounceAllOver_eq] at hrun
  exact hrun

/-- The debounce of all lines leaves the Loop Port and the Command Unit alone. -/
theorem debounceAllOver_same (s : State) :
    s.debounceAllOver.port = s.port ∧ s.debounceAllOver.commands = s.commands := by
  have hstep (u : State) (i : Fin 8) : ((u.debounceIfOver i).port, (u.debounceIfOver i).commands) =
      (u.port, u.commands) := by
    unfold State.debounceIfOver
    split
    · rw [debounceExpires_frame]
    · rfl
  rw [debounceAllOver_eq]
  exact Prod.mk.inj (foldl_same (fun u : State => (u.port, u.commands)) State.debounceIfOver hstep allLines s)

/-! ### The record stored (R147, R148, R138) -/

/-- LINE SET before the lines that are due are debounced. -/
def State.storeLine (i : Fin 8) (f : LineSetting) (ms : Nat) (s : State) : State :=
  (s.modifyLine i (·.configure f s.now)).followLampTest.setDebounce ms

theorem setLine_eq (s : State) (i : Fin 8) (f : LineSetting) (ms : Nat) :
    s.setLine i f ms = (s.storeLine i f ms).debounceAllOver := rfl

theorem storeLine_line (s : State) (i j : Fin 8) (f : LineSetting) (ms : Nat) :
    (s.storeLine i f ms).line j = if j = i then (s.line j).configure f s.now else s.line j :=
  modifyLine_line s i j _

theorem storeLine_lampTestFollows (s : State) (i : Fin 8) (f : LineSetting) (ms : Nat) :
    LampTestFollows (s.storeLine i f ms) :=
  followLampTest_follows (s.modifyLine i (·.configure f s.now))

theorem storeLine_lampsFollow (s : State) (i : Fin 8) (f : LineSetting) (ms : Nat) :
    LampsFollow s (s.storeLine i f ms) := by
  have h : LampsFollow s (s.modifyLine i (·.configure f s.now)).followLampTest :=
    followLampTest_lampsFollow (.same rfl)
  exact { h with settled := h.settled.congr rfl rfl rfl rfl rfl rfl rfl rfl rfl }

/-- LINE SET accepted, with the record as R147 and R148 say and the debounce as the rows do it. -/
theorem setLine_answered {s t : State} {h : CommandHead} (ha : Addressed s h) {b : List Byte} {i : Fin 8}
    {f : LineSetting} (busy : Frame × Nat)
    (ht : t = (s.received.setLine i f (debounceField b)).answered h 0x60 []) :
    ∃ u v, u = { s with
        port := { s.port with receiver := .hunting, badRun := 0 }
        lamps := u.lamps, panel := u.panel } ∧
      u.panel.debounce = debounceField b ∧ (∀ j, j ≠ i → u.line j = s.line j) ∧
      u.line i = (s.line i).configure f s.now ∧ LampTestFollows u ∧ LampsFollow s u ∧
      execAll ((allLines.filter u.debounceOver).map .debounceExpiry) (u.withSending (some busy)) = .next v ∧
      t = { v with port := { v.port with sending := s.port.sending }, commands := t.commands } ∧
      v.commands = s.commands ∧ OneReply s t h 0x60 .ok [] := by
  have hreceived := received_of_station ha.assigned.1
  have hlamps := storeLine_lampsFollow s.received i f (debounceField b)
  have hline := storeLine_line s.received i (f := f) (ms := debounceField b)
  rw [setLine_eq] at ht
  generalize hu : s.received.storeLine i f (debounceField b) = u at ht
  have hrun := execAll_debounceAllOver u busy
  obtain ⟨hport, hcommands⟩ := debounceAllOver_same u
  generalize u.debounceAllOver = v at hrun hport hcommands ht
  have hsending : v.port.sending = s.port.sending := by
    rw [hport, ← hu]
    exact congrArg (·.port.sending) hreceived
  have hkept : v.commands = s.commands := by rw [hcommands, ← hu]; rfl
  refine ⟨u, v.withSending (some busy), ?stored, ?time, fun j hj => ?others, ?own, ?lamptest, ?lamps, hrun,
    ?left, hkept, ht ▸ answered_oneReply hkept⟩
  case stored => rw [← hu, hreceived]; rfl
  case time => rw [← hu]; rfl
  case others => rw [← hu, hline, if_neg hj]; rfl
  case own => rw [← hu, hline, if_pos rfl]; rfl
  case lamptest => rw [← hu]; exact storeLine_lampTestFollows _ i f _
  case lamps => rw [← hu]; exact { hlamps with }
  case left => rw [ht, ← hsending]; rfl

/-- Settles O42: the record stored, then the due lines debounced by their rows; or BAD_PARAM. -/
theorem lineSetStoresTheLine : Obligations.LineSetStoresTheLine := by
  intro h b busy s ha hlen
  by_cases hno : 7 < field8 b 0 ∨ lineSettingField b = none
  · obtain ⟨t, hexec, hans⟩ := arriveCommand_refused ha (code := 0x60) rfl hlen
      (takeLineSet_refused hno s.received)
    refine ⟨t, hexec, fun _ => hans, fun i dir pol fn src g hi hdir hpol hfn hsrc hg hrange => ?_⟩
    have hsome := lineSettingField_eq_some hdir hpol hfn hsrc hg hrange
    rcases hno with hline | hnone
    · omega
    · exact nomatch hsome.symm.trans hnone
  · obtain ⟨hline, hset⟩ := not_or.1 hno
    obtain ⟨f, hf⟩ := Option.ne_none_iff_exists'.1 hset
    obtain ⟨i, hi⟩ : ∃ i : Fin 8, field8 b 0 = i.val := ⟨⟨field8 b 0, by omega⟩, rfl⟩
    refine ⟨_, arriveCommand_answered ha (code := 0x60) rfl hlen (takeLineSet_accepted hi hf s.received),
      fun hbad => absurd (hbad.imp_right lineSettingField_eq_none) hno,
      fun i' dir pol fn src g hi' hdir hpol hfn hsrc hg hrange => ?_⟩
    obtain rfl : f = ⟨dir, pol, fn, g, src⟩ :=
      Option.some.inj (hf.symm.trans (lineSettingField_eq_some hdir hpol hfn hsrc hg hrange))
    obtain rfl : i = i' := Fin.ext (hi.symm.trans hi')
    obtain ⟨u, v, hu, htime, hothers, hown, hrest⟩ := setLine_answered ha busy rfl
    have hover : u.debounceOver = fun j =>
        decide (∃ m, (u.line j).timer = some m ∧ m + u.panel.debounce ≤ u.now) :=
      funext fun j => Bool.eq_iff_iff.2 ((debounceOver_iff u j).trans decide_eq_true_iff.symm)
    rw [hover] at hrest
    exact ⟨u, v, hu, htime, hothers, hown.trans (configure_eq _ _ _), hrest⟩

end Sys2Proof.Machine
end

section
/-! Frames that no block acts on (R160 to R165): the forwarding decision, a PASS-ONLY controller, commands that
are not for this station (R162, R172, R176), and the station number (R161). -/

namespace Sys2Proof.Machine

/-! ### The forwarding decision, row by row (R162) -/

/-- A frame of the kinds that only the loop head may send: telemetry and COMMAND (R162, row 3). -/
theorem loopHeadKind_iff (kind : Byte) :
    (isTelemetry kind = true ∨ kind = kindCommand) ↔ kind = 1 ∨ kind = 2 ∨ kind = 3 ∨ kind = 4 := by
  simp only [isTelemetry, kindCycle, kindPoints, kindOutstation, kindCommand, Bool.or_eq_true, beq_iff_eq,
    or_assoc]

section

variable {s : State} {n : Byte} (hs : s.port.station = some n)
include hs

theorem arrive_eq_decision (f : Frame) : s.arrive f = s.received.forwardingDecision n f := by
  rw [State.arrive, hs]

/-- A frame under this station's own number is stripped and counted RETURNED (R162 row 1, R164). -/
theorem arrive_returned {f : Frame} (hsrc : f.src = n) : s.arrive f = { s with port := { s.port with
    receiver := .hunting, badRun := 0
    returned := if s.port.returned < 255 then s.port.returned + 1 else s.port.returned } } := by
  rw [arrive_eq_decision hs, State.forwardingDecision, if_pos hsrc, received_of_station hs]
  rfl

/-- A frame of the loop head's kinds from another source is counted FOREIGN and forwarded (R162 row 3, R164). -/
theorem arrive_foreign {f : Frame} (hsrc : f.src ≠ n) (hhead : f.src ≠ 63)
    (hkind : isTelemetry f.kind = true ∨ f.kind = kindCommand) : s.arrive f = State.passedOn
      { s with port := { s.port with
          foreign := if s.port.foreign < 255 then s.port.foreign + 1 else s.port.foreign } } f := by
  rw [arrive_eq_decision hs, State.forwardingDecision, if_neg hsrc, if_neg fun h => hhead h.2,
    if_pos ⟨hkind, hhead⟩]
  refine Eq.trans ?_ (received_forward (s := s.countForeign) hs f)
  rw [received_of_station hs, received_of_station (s := s.countForeign) hs]
  rfl

/-- A command of the loop head to another station is forwarded (R162, row 6). -/
theorem arrive_otherStation {f : Frame} (hsrc : f.src ≠ n) (hhead : f.src = 63) (hkind : f.kind = kindCommand)
    (hdest : f.dest ≠ n) (hall : f.dest ≠ 0) : s.arrive f = s.passedOn f := by
  rw [arrive_eq_decision hs, State.forwardingDecision, if_neg hsrc, if_neg fun h => ?telemetry,
    if_neg fun h => h.2 hhead, if_pos hkind, if_neg hdest, if_neg hall, received_forward hs]
  case telemetry =>
    rw [hkind] at h
    exact absurd h.1 (by decide)

/-- A frame of any other kind is forwarded (R162, row 7). -/
theorem arrive_otherKind {f : Frame} (hsrc : f.src ≠ n)
    (hkind : ¬ (isTelemetry f.kind = true ∨ f.kind = kindCommand)) : s.arrive f = s.passedOn f := by
  obtain ⟨htelemetry, hcommand⟩ := not_or.1 hkind
  rw [arrive_eq_decision hs, State.forwardingDecision, if_neg hsrc, if_neg fun h => htelemetry h.1,
    if_neg fun h => hkind h.1, if_neg hcommand, received_forward hs]

end

/-- A frame row with no grant due is the arrival of its frame. -/
theorem exec_frame_of_noGrantDue {i : Instr} {f : Frame} (hi : frameOf i = some f) {s : State}
    (hn : NoGrantDue s) : exec i s = .next (s.arrive f) := by
  rw [exec_frameOf hi, granted_of_noGrantDue hn]

/-- Settles O9: the rows of R162 that strip and forward, one clause for each. -/
theorem forwardingDecision : Obligations.ForwardingDecision := by
  intro kind dest src n body s hs hn
  have hexec : exec (.forwardedFrame kind dest src body) s = .next (s.arrive ⟨kind, dest, src, body⟩) :=
    exec_frame_of_noGrantDue rfl hn
  rw [hexec]
  refine ⟨fun hsrc => congrArg _ (arrive_returned hs hsrc), fun hsrc hhead hkind => ?_,
    fun hsrc hhead hkind hdest hall => congrArg _ (arrive_otherStation hs hsrc hhead hkind hdest hall),
    fun hsrc h1 h2 h3 h4 => ?_⟩
  · exact congrArg _ (arrive_foreign hs hsrc hhead ((loopHeadKind_iff kind).2 hkind))
  · refine congrArg _ (arrive_otherKind hs hsrc fun hkind => ?_)
    rcases (loopHeadKind_iff kind).1 hkind with h | h | h | h
    exacts [h1 h, h2 h, h3 h, h4 h]

/-! ### A PASS-ONLY controller (R160) -/

/-- Settles O10: reception and the through FIFO, with nothing counted. -/
theorem passOnlyRepeatsEveryFrame : Obligations.PassOnlyRepeatsEveryFrame := by
  intro i f s hs hi hn
  have hassigned : s.received.assigned = false := not_assigned_of_passOnly (s := s.received) hs
  have hreceived : s.received = s.hunt := by rw [State.received, hs]; rfl
  rw [exec_frame_of_noGrantDue hi hn, State.arrive, hs]
  dsimp only
  rw [State.forward, hassigned, hreceived]
  by_cases hroom : s.port.fifo.length < 4
  · rw [if_pos (show s.hunt.port.fifo.length < Config.fifoDepth from hroom), if_pos hroom]
    rfl
  · rw [if_neg (show ¬ s.hunt.port.fifo.length < Config.fifoDepth from hroom), if_neg hroom]
    rfl

/-! ### Commands that are not for this station (R162, R172, R176) -/

/-- The codes of the table are those that name a command, with the same commands broadcast-allowed. -/
theorem commandRule_broadcast_of_mem : ∀ r ∈ commandTable,
    (commandRule r.code).map (·.broadcast) = some r.broadcast := by decide +kernel

theorem commandRule_of_not_mem {code : Byte} (h : ∀ r ∈ commandTable, r.code ≠ code) :
    commandRule code = none := by
  have hcodes : ∀ code : Byte, (commandRule code).isSome → ∃ r ∈ commandTable, r.code = code := by
    decide +kernel
  cases hrule : commandRule code with
  | none => rfl
  | some rule =>
    obtain ⟨r, hr, hcode⟩ := hcodes code (by rw [hrule]; rfl)
    exact absurd hcode (h r hr)

/-- Every command row of the table is the frame of its code. -/
theorem frameOf_commandRow (h : CommandHead) (params : List Byte) : ∀ r ∈ commandTable,
    frameOf (r.row h params) = some (commandFrame h r.code params) := by
  simp only [commandTable, List.forall_mem_cons, List.not_mem_nil, false_imp_iff, implies_true, and_true]
  and_intros <;> exact rfl

/-- A broadcast command that is not broadcast-allowed is not taken (R176). -/
theorem takeBroadcast_of_not_allowed {code : Byte}
    (h : ∀ rule, commandRule code = some rule → rule.broadcast = false) (tag : Byte) (params : List Byte)
    (s : State) : s.takeBroadcast tag code params = s := by
  unfold State.takeBroadcast
  split
  · rfl
  next rule hrule => rw [if_neg fun hall => by rw [h rule hrule] at hall; exact Bool.false_ne_true hall.1]

/-- The command rows, with the frame of each and, where the command is not broadcast-allowed, its rule. -/
theorem commandRow_frame {i : Instr} {h : CommandHead} {code : Byte} {params : List Byte} {allowed : Bool}
    (hi : (i = .unknownCommand h code params ∧ (∀ r ∈ commandTable, r.code ≠ code) ∧ allowed = false) ∨
      (∃ r ∈ commandTable, i = r.row h params ∧ code = r.code ∧ allowed = r.broadcast)) :
    frameOf i = some (commandFrame h code params) ∧
      ∀ rule, commandRule code = some rule → rule.broadcast = allowed := by
  rcases hi with ⟨rfl, hcode, -⟩ | ⟨r, hr, rfl, rfl, rfl⟩
  · refine ⟨rfl, fun rule hrule => ?_⟩
    rw [commandRule_of_not_mem hcode] at hrule
    exact nomatch hrule
  · refine ⟨frameOf_commandRow h params r hr, fun rule hrule => ?_⟩
    have hbroadcast := commandRule_broadcast_of_mem r hr
    rw [hrule] at hbroadcast
    exact Option.some.inj hbroadcast

/-- Settles O14: rows 1, 3 and 6 of R162, and a broadcast that is forwarded and not taken. -/
theorem commandsNotForThisStationPassOn : Obligations.CommandsNotForThisStationPassOn := by
  intro i h n code params allowed s hi ha hn
  obtain ⟨hs, h0, h63⟩ := ha
  obtain ⟨hframe, hrule⟩ := commandRow_frame hi
  rw [exec_frame_of_noGrantDue hframe hn]
  refine ⟨fun hhead hdest hpass => ?_,
    fun hhead hsrc => congrArg _ (arrive_foreign hs hsrc hhead (.inr rfl)),
    fun hsrc => congrArg _ (arrive_returned hs hsrc)⟩
  obtain ⟨dest, src, tag⟩ := h
  obtain rfl : src = 63 := hhead
  by_cases hall : dest = 0
  · subst hall
    have hallowed : allowed = false := hpass.resolve_left fun h => h rfl
    have harrive := arriveCommand_broadcast ⟨hs, h0, h63⟩ hn tag code params
    rw [takeBroadcast_of_not_allowed fun rule hr => (hrule rule hr).trans hallowed,
      State.arriveCommand, granted_of_noGrantDue hn] at harrive
    exact harrive
  · exact congrArg _ (arrive_otherStation hs h63.symm rfl rfl hdest hall)

/-! ### SET STATION (R161) -/

theorem takeSetStation_eq (x : Byte) (s : State) : takeSetStation [x] s =
    if 1 ≤ x.toNat ∧ x.toNat ≤ 62 then .ok { s with port := { s.port with station := some x } }
    else .refuse s .badParam := by
  have hbyte : byteOf (field8 [x] 0) = x :=
    (BitVec.ofNat_toNat 8 x).trans (BitVec.setWidth_eq x)
  rw [takeSetStation, hbyte]
  rfl

/-- Settles O17: the range's check, then the number changed under a reply that carries the old one. -/
theorem setStationAnswersUnderTheOldNumber : Obligations.SetStationAnswersUnderTheOldNumber := by
  intro h x s ha
  have hrun := takeSetStation_eq x s.received
  by_cases hrange : 1 ≤ x.toNat ∧ x.toNat ≤ 62
  · rw [if_pos hrange] at hrun
    refine ⟨_, arriveCommand_answered ha (code := 0x02) rfl rfl hrun, fun _ => ⟨?_, rfl⟩, fun hbad => by omega⟩
    rw [received_of_station ha.assigned.1]
  · rw [if_neg hrange] at hrun
    obtain ⟨t, hexec, hans⟩ := arriveCommand_refused ha (code := 0x02) rfl rfl hrun
    exact ⟨t, hexec, fun hgood => absurd hgood hrange, fun _ => hans⟩

end Sys2Proof.Machine
end

section
/-! The first record of a session (R184, R186, R160), and frame errors (R155 to R158). -/

namespace Sys2Proof.Machine

/-! ### Start-up (R184) -/

theorem exec_startedRecordQueued {s : State} (hn : NoGrantDue s) :
    exec .startedRecordQueued s = .next s.takeStarted := by
  rw [show exec .startedRecordQueued s = .next s.granted.takeStarted from rfl, granted_of_noGrantDue hn]

/-- After a hardware reset nothing waits to be sent (R168). -/
theorem noGrantDue_hardwareReset (s : State) (source : ResetSource) (straps : BitVec 6) :
    NoGrantDue (s.hardwareReset source straps) := .inr ⟨rfl, .inr ⟨rfl, rfl⟩⟩

theorem takeStarted_of_due {s : State} {cause : StartCause} (h : s.startDue = some cause) : s.takeStarted =
    State.record (.started cause (s.port.station.getD 0))
      { s with clock := max s.clock 40, startDue := none } := by
  rw [State.takeStarted, h]
  rfl

theorem takeStarted_of_not_due {s : State} (h : s.startDue = none) : s.takeStarted = s := by
  rw [State.takeStarted, h]

/-- The STARTED record of start-up is stamped 0 and 0 (R126, R184). -/
theorem hardwareReset_stamp_at_start (s : State) (source : ResetSource) (straps : BitVec 6)
    (due : Option StartCause) : State.stamp { s.hardwareReset source straps with
      clock := max (s.hardwareReset source straps).clock 40, startDue := due } = ⟨0, 0⟩ := by
  simp [State.stamp, State.now, State.hardwareReset, State.afterReset]

theorem Reports.record_empty (stamp : Stamp) (d : RecordData) (mask : Byte) :
    Reports.record stamp d ⟨[], 0, 0, mask⟩ = ⟨[⟨d, stamp⟩], 0, 0, mask⟩ := rfl

/-- Settles O5: the record that the reset leaves due, and none due after it. -/
theorem startUpQueuesOneStartedRecord : Obligations.StartUpQueuesOneStartedRecord := by
  intro source straps s hlong
  have hreset := noGrantDue_hardwareReset s source straps
  have hdue := hardwareReset_startDue s source straps
  refine ⟨s.hardwareReset source straps, ?_, fun hpass => ?_, fun ⟨h0, h63⟩ => ?_⟩
  · rw [exec_hardwareReset, if_pos ((givesReset_iff source).2 hlong)]
  · rw [if_pos hpass] at hdue
    rw [exec_startedRecordQueued hreset, takeStarted_of_not_due hdue]
  · have hassigned : ¬ (straps = 0 ∨ straps = 63) := not_or.2 ⟨h0, h63⟩
    have hstation : (s.hardwareReset source straps).port.station = some (straps.zeroExtend 8) :=
      if_neg hassigned
    rw [if_neg hassigned] at hdue
    rw [exec_startedRecordQueued hreset, takeStarted_of_due hdue, hstation]
    refine ⟨_, _, rfl, rfl, ?_, rfl, ?_⟩
    · rw [State.record_reports, hardwareReset_stamp_at_start s source straps none]
      cases source <;> exact Reports.record_empty _ _ _
    · rw [exec_startedRecordQueued (noGrantDue_granted _), takeStarted_of_not_due (State.granted_startDue _)]

/-! ### Frame errors (R155 to R158) -/

/-- BAD_LENGTH and BAD_CRC are the frame error that the receiver finds. -/
theorem exec_frameError {i : Instr} (hi : i = .badLength ∨ i = .badCrc) {s : State} (hn : NoGrantDue s) :
    exec i s = .next s.frameError := by
  have hgranted : exec i s = .next s.granted.frameError := by
    rcases hi with rfl | rfl <;> rfl
  rw [hgranted, granted_of_noGrantDue hn]

theorem exec_truncated {s : State} (hn : NoGrantDue s) : exec .truncated s = .next s.takeTruncated := by
  rw [show exec .truncated s = .next s.granted.takeTruncated from rfl, granted_of_noGrantDue hn]

/-- TRUNCATED is a frame error at the gap timer's moment (R156). -/
theorem takeTruncated_of_gapEnds {s : State} {g : Nat} (h : s.port.receiver.gapEnds = some g) :
    s.takeTruncated = (s.advanceTo g).frameError := by
  rw [State.takeTruncated, h]

/-- A PASS-ONLY controller counts no frame error (R160). -/
theorem frameError_of_passOnly {s : State} (hs : s.port.station = none) : s.frameError = s.hunt := by
  rw [State.frameError, State.countFrameError, not_assigned_of_passOnly (s := s.hunt) hs,
    if_neg Bool.false_ne_true]

/-- A frame error counted in the total and in the bad run, whose eighth is the cause FRAME_ERRORS (R158). -/
theorem frameError_of_assigned {s : State} (hs : s.port.station.isSome) : s.frameError = { s with
    port := { s.port with
      receiver := .hunting
      frameErrors := if s.port.frameErrors < 65535 then s.port.frameErrors + 1 else s.port.frameErrors
      badRun := if s.port.badRun < 8 then s.port.badRun + 1 else s.port.badRun }
    reports := if s.port.badRun = 7 then s.reports.caused s.stamp .frameErrors else s.reports } := by
  rw [State.frameError, State.countFrameError, if_pos (show s.hunt.assigned = true from hs), Reports.caused_eq]
  dsimp only
  by_cases heighth : s.port.badRun = 7
  · rw [if_pos heighth, if_pos (show s.hunt.port.badRun + 1 = Config.badRunLimit from congrArg (· + 1) heighth)]
    rfl
  · rw [if_neg heighth,
      if_neg (show ¬ s.hunt.port.badRun + 1 = Config.badRunLimit from fun h => heighth (Nat.succ.inj h))]
    rfl

/-- Settles O8: the counts, and TRUNCATED as the frame error at its moment. -/
theorem frameErrorsAreCounted : Obligations.FrameErrorsAreCounted := by
  intro i s hi hn
  refine ⟨fun hs => ⟨_, exec_frameError hi hn, ?_⟩, fun hs => ?_, fun hr => ?_, fun g hg => ?_⟩
  · rw [frameError_of_assigned hs]
    exact ⟨rfl, rfl, rfl⟩
  · rw [exec_frameError hi hn, frameError_of_passOnly hs]
    rfl
  · rw [exec_truncated hn, State.takeTruncated, hr]
    rfl
  · refine ⟨_, exec_truncated hn, ?_⟩
    rw [takeTruncated_of_gapEnds ((gapEnds_iff _ g).2 hg)]
    exact exec_frameError hi (s := s.advanceTo g) hn

end Sys2Proof.Machine
end

section
/-! The egress arbiter (R163, R166, R167, R189): which frame a grant chooses, the records of an EVENTS frame (R200),
and LOOP OUT (R152 to R154, R171). -/

namespace Sys2Proof.Machine

/-! ### Pieces of one length laid out one after another -/

theorem getElem?_flatMap_of_length {α β : Type} {f : α → List β} {n : Nat} (hf : ∀ a, (f a).length = n)
    (l : List α) (k : Nat) {j : Nat} (hj : j < n) :
    (l.flatMap f)[n * k + j]? = l[k]?.bind fun a => (f a)[j]? := by
  induction l generalizing k with
  | nil => rfl
  | cons a l ih =>
    rw [List.flatMap_cons]
    cases k with
    | zero => rw [Nat.mul_zero, Nat.zero_add, List.getElem?_append_left (by rwa [hf a])]; rfl
    | succ k =>
      rw [show n * (k + 1) + j = (f a).length + (n * k + j) by rw [hf a, Nat.mul_succ]; omega,
        List.getElem?_append_right (Nat.le_add_right _ _), Nat.add_sub_cancel_left, ih k]
      rfl

/-! ### Once granted (R166, R169) -/

/-- An own event is taken as if the grant that is due had been made before it. -/
theorem take_granted (e : OwnEvent) (currents : BitVec 256) (s : State) :
    e.take currents s.granted = e.take currents s := by
  unfold OwnEvent.take
  rw [granted_granted]

/-- A reset reads of the state what no grant moves (R184). -/
theorem hardwareReset_granted (s : State) (source : ResetSource) (straps : BitVec 6) :
    s.granted.hardwareReset source straps = s.hardwareReset source straps := by
  rw [granted_frame]
  rfl

/-- Every command is taken as if the grant that is due had been made before it (R163, R169). -/
theorem exec_granted (c : Instr) (s : State) : exec c s.granted = exec c s := by
  cases hf : frameOf c with
  | some f => rw [exec_frameOf hf, exec_frameOf hf, granted_granted]
  | none =>
    have own (e : OwnEvent) (currents : BitVec 256) :
        exec (e.row currents) s.granted = exec (e.row currents) s := by
      rw [exec_row, exec_row, take_granted]
    have after (f : State → State) : (.next (f s.granted.granted) : Host.Outcome State Fault Refusal) =
        .next (f s.granted) := by rw [granted_granted]
    cases c with
    | hardwareReset source straps =>
      rw [exec_hardwareReset, exec_hardwareReset, hardwareReset_granted, granted_granted]
    | badLength => exact after State.frameError
    | badCrc => exact after State.frameError
    | pinChange line level =>
      exact after fun t => t.modifyLine line (·.pinBecomes level t.now)
    | byteReceived character => exact after (State.takeCharacter character)
    | startedRecordQueued => exact own .started 0
    | truncated => exact own .gap 0
    | lateBoundExpiry => exact own .lateBound 0
    | holdExpiry => exact own .hold 0
    | dwellEnd currents => exact own .dwell currents
    | senseTimerExpiry currents => exact own .sense currents
    | phaseEnd generator currents => exact own (.phase generator) currents
    | debounceExpiry line => exact own (.debounce line) 0
    | grant => exact own .grant 0
    | transmissionEnd => exact own .sent 0
    | _ => cases hf

/-! ### The case of a grant (R166) -/

theorem Frame.duration_eq (f : Frame) : f.duration = 10 * f.sentAs.length := by
  rw [f.sentAs_length, Frame.duration]

theorem localWaits_iff (s : State) : s.localWaits = true ↔
    s.port.station.isSome ∧ (s.commands.replies ≠ [] ∨ s.reports.queue ≠ []) := by
  simp [State.localWaits, State.assigned]

section

variable {s : State} (hs : s.port.sending = none)
include hs

/-- Case 1: the oldest through frame. -/
theorem granted_through {f : Frame} {rest : List Frame} (hf : s.port.fifo = f :: rest)
    (hw : s.port.localWait < 8 ∨ s.localWaits = false) :
    s.granted = { s with port := { s.port with
      fifo := rest
      sending := some (f, s.clock + 10 * f.sentAs.length)
      localWait := if s.localWaits then s.port.localWait + 1 else s.port.localWait } } := by
  rw [State.granted, hs, hf, ← f.duration_eq]
  exact if_pos (hw.imp_right Bool.eq_false_iff.1)

/-- With no through frame, or with the local-wait count at its limit, the local side is served. -/
theorem granted_local (hw : s.localWaits = true) (hf : s.port.fifo = [] ∨ 8 ≤ s.port.localWait) :
    s.granted = s.grantLocal := by
  rw [State.granted, hs]
  dsimp only
  split
  next f rest hfifo =>
    have hlimit : 8 ≤ s.port.localWait := hf.resolve_left (by rw [hfifo]; exact List.cons_ne_nil f rest)
    exact if_neg (not_or.2 ⟨Nat.not_lt.2 hlimit, not_not.2 hw⟩)
  next => rw [if_pos hw]

/-- With nothing waiting there is no grant. -/
theorem granted_idle (hw : s.localWaits = false) (hf : s.port.fifo = []) : s.granted = s := by
  rw [State.granted, hs, hf]
  exact if_neg (Bool.eq_false_iff.1 hw)

end

/-- Case 2: the oldest reply. -/
theorem grantLocal_reply {s : State} {f : Frame} {rest : List Frame} (hr : s.commands.replies = f :: rest) :
    s.grantLocal = { s with
      port := { s.port with sending := some (f, s.clock + 10 * f.sentAs.length), localWait := 0 }
      commands := { s.commands with replies := rest } } := by
  rw [State.grantLocal, hr, ← f.duration_eq]
  rfl

/-- Case 3: the EVENTS frame. -/
theorem grantLocal_events {s : State} (hr : s.commands.replies = []) (hq : s.reports.queue ≠ []) :
    s.grantLocal = { s with
      port := { s.port with
        sending := some (s.eventsFrame, s.clock + 10 * s.eventsFrame.sentAs.length), localWait := 0 }
      reports := { s.reports with queue := s.reports.queue.drop 6 } } := by
  rw [State.grantLocal, hr, ← Frame.duration_eq]
  exact if_neg fun h => hq (List.isEmpty_iff.1 h)

/-! ### The records of an EVENTS frame (R189, R200) -/

theorem EventRecord.bytes_length (r : EventRecord) : r.bytes.length = 10 := by
  obtain ⟨data, stamp⟩ := r
  cases data <;> rfl

theorem field16_of_zeros {b : List Byte} {i : Nat} (h : field8 b i = 0) (h' : field8 b (i + 1) = 0) :
    field16 b i = 0 := by
  rw [field16, h, h']

/-- The ten bytes of a record say what the record says (R200, 11.5). -/
theorem recordAt_bytes (r : EventRecord) : RecordAt r.bytes 0 r := by
  obtain ⟨data, stamp⟩ := r
  refine ⟨field16_bytes16 stamp.cycle (bytes16 stamp.offset ++ data.bytes.2),
    field16_bytes16 stamp.offset data.bytes.2, ?_⟩
  cases data with
  | alarm k t c g =>
    obtain ⟨hupper, hlower⟩ : (nibbles t.code (causeCode c)).toNat / 16 = t.code ∧
        (nibbles t.code (causeCode c)).toNat % 16 = causeCode c := by
      cases t <;> cases c with
      | none => exact ⟨rfl, rfl⟩
      | some c => cases c <;> exact ⟨rfl, rfl⟩
    exact ⟨rfl, field16_bytes16 k.outstation [byteOf k.index, nibbles t.code (causeCode c), g],
      byteOf_toNat _, hupper, hlower, rfl⟩
  | key line fn group =>
    exact ⟨rfl, byteOf_toNat _, by cases fn <;> rfl, byteOf_toNat _, field16_of_zeros rfl rfl⟩
  | lampFault ch kind =>
    exact ⟨rfl, byteOf_toNat _, by cases kind <;> rfl, rfl, field16_of_zeros rfl rfl⟩
  | condition c =>
    exact ⟨rfl, by cases c <;> rfl, field16_of_zeros rfl rfl, field16_of_zeros rfl rfl⟩
  | started cause station =>
    exact ⟨rfl, by cases cause <;> rfl, rfl, rfl, field16_of_zeros rfl rfl⟩
  | tableCleared n => exact ⟨rfl, field16_bytes16 n [0, 0, 0], rfl, field16_of_zeros rfl rfl⟩
  | holdEnded cause =>
    exact ⟨rfl, by cases cause <;> rfl, field16_of_zeros rfl rfl, field16_of_zeros rfl rfl⟩

/-- What ten bytes say, the same ten bytes say at another place. -/
theorem RecordAt.congr {b b' : List Byte} {p p' : Nat} {r : EventRecord} (h : RecordAt b' p' r)
    (hb : ∀ i < 10, b[p + i]? = b'[p' + i]?) : RecordAt b p r := by
  have h8 (i : Nat) (hi : i < 10) : field8 b (p + i) = field8 b' (p' + i) := by
    rw [field8, field8, List.getD_eq_getElem?_getD, List.getD_eq_getElem?_getD, hb i hi]
  have h16 (i : Nat) (hi : i < 9) : field16 b (p + i) = field16 b' (p' + i) := by
    rw [field16, field16, h8 i (by omega), Nat.add_assoc, h8 (i + 1) (by omega), Nat.add_assoc]
  have h0 : field8 b p = field8 b' p' := h8 0 (by decide)
  unfold RecordAt at h ⊢
  rw [h16 1 (by decide), h16 3 (by decide)]
  obtain ⟨hcycle, hoffset, hdata⟩ := h
  refine ⟨hcycle, hoffset, ?_⟩
  simpa only [upperNibble, lowerNibble, h0, h8 5 (by decide), h8 6 (by decide), h8 7 (by decide),
    h8 8 (by decide), h16 5 (by decide), h16 6 (by decide), h16 8 (by decide), hb 6 (by decide),
    hb 9 (by decide)] using hdata

theorem eventsBody_length (lost : Nat) (records : List EventRecord) :
    (eventsBody lost records).length = 2 + 10 * records.length := by
  have hrecords : (records.flatMap EventRecord.bytes).length = 10 * records.length := by
    simp [List.length_flatMap, EventRecord.bytes_length, Nat.mul_comm]
  rw [eventsBody, List.length_cons, List.length_cons, hrecords]
  omega

/-- The k-th record of an EVENTS body stands ten bytes after the one before (R200). -/
theorem recordAt_eventsBody (lost : Nat) {records : List EventRecord} {k : Nat} {r : EventRecord}
    (hr : records[k]? = some r) : RecordAt (eventsBody lost records) (2 + 10 * k) r := by
  refine (recordAt_bytes r).congr fun i hi => ?_
  have hplace : 2 + 10 * k + i = 10 * k + i + 1 + 1 := by omega
  rw [eventsBody, hplace, List.getElem?_cons_succ, List.getElem?_cons_succ,
    getElem?_flatMap_of_length EventRecord.bytes_length records k hi, hr, Nat.zero_add]
  rfl

/-! ### LOOP OUT (R152, R153) -/

theorem characterLevels_length (c : Character) : (characterLevels c).length = 10 := by
  simp [characterLevels]

/-- The level of each bit time of the character of a byte: start bit, data bits, stop bit (R152). -/
theorem characterLevels_getElem? (b : Byte) {j : Nat} (hj : j < 10) :
    (characterLevels (characterOf b))[j]? = some (if j = 0 then .low else if j = 9 then .high
      else if b.getLsbD (j - 1) then .high else .low) := by
  have hall : ∀ (b : Byte) (j : Fin 10), (characterLevels (characterOf b))[j.val]? =
      some (if j.val = 0 then .low else if j.val = 9 then .high
        else if b.getLsbD (j.val - 1) then .high else .low) := by decide +kernel
  exact hall b ⟨j, hj⟩

/-- The level of each bit time of a frame on the line (R152, R153). -/
theorem levels_getElem? {f : Frame} {k j : Nat} {b : Byte} (hb : f.sentAs[k]? = some b) (hj : j < 10) :
    f.levels[10 * k + j]? = some (if j = 0 then .low else if j = 9 then .high
      else if b.getLsbD (j - 1) then .high else .low) := by
  rw [Frame.levels, f.wire_eq, getElem?_flatMap_of_length (fun b => characterLevels_length (characterOf b)) _ k hj,
    hb]
  exact characterLevels_getElem? b hj

/-- The bit time that a frame in transmission has reached gives LOOP OUT its level (R152). -/
theorem loopOut_of_sending {s : State} {f : Frame} {e k j : Nat} {b : Byte}
    (hs : s.port.sending = some (f, e)) (hb : f.sentAs[k]? = some b) (hj : j < 10)
    (hreached : s.clock + 10 * f.sentAs.length = e + 10 * k + j) :
    s.loopOut = if j = 0 then .low else if j = 9 then .high
      else if b.getLsbD (j - 1) then .high else .low := by
  obtain ⟨hk, -⟩ := List.getElem?_eq_some_iff.1 hb
  have hbit : s.clock + f.duration - e = 10 * k + j := by
    rw [f.duration_eq]
    omega
  simp only [State.loopOut, hs, if_pos (show s.clock < e by omega), hbit, List.getD_eq_getElem?_getD,
    levels_getElem? hb hj, Option.getD_some]

/-! ### The statement -/

/-- Settles O11: the grant case by case, then the transmission's end and the levels of LOOP OUT. -/
theorem grantChoosesByTheCases : Obligations.GrantChoosesByTheCases := by
  intro s
  have hgrant : exec .grant s = .next s.granted := rfl
  refine ⟨⟨_, hgrant, noGrantDue_granted s, fun c => (exec_granted c s).symm⟩,
    fun hs => by rw [hgrant, granted_of_noGrantDue (.inl hs)], fun hs waits hwaits => ?cases,
    fun hs hn => ?idle, fun f e hs => ?ended, fun hs => ?free, fun f e hs hover => ?past,
    fun f e k j b hs hb hj hreached => loopOut_of_sending hs hb hj hreached⟩
  case cases =>
    obtain rfl : s.localWaits = waits := Bool.eq_iff_iff.2 ((localWaits_iff s).trans hwaits.symm)
    rw [hgrant]
    refine ⟨fun f rest hf hw => congrArg _ (granted_through hs hf hw), fun hw hf => ?_,
      fun hw hf => congrArg _ (granted_idle hs hw hf)⟩
    rw [granted_local hs hw hf]
    refine ⟨fun f rest hr => congrArg _ (grantLocal_reply hr), fun hr => ?_⟩
    obtain ⟨hstation, hlocal⟩ := hwaits.1 hw
    obtain ⟨n, hn⟩ := Option.isSome_iff_exists.1 hstation
    have hlen : (s.reports.queue.take 6).length = min 6 s.reports.queue.length := List.length_take
    refine ⟨s.eventsFrame, congrArg _ (grantLocal_events hr (hlocal.resolve_left fun h => h hr)), rfl, rfl, ?_,
      (eventsBody_length _ _).trans (by rw [← hlen]; rfl), byteOf_toNat _, ?_, fun k r hk hr => ?_⟩
    · rw [State.eventsFrame, hn]
      rfl
    · refine (byteOf_toNat _).trans ?_
      rw [show Config.recordsPerFrame = 6 from rfl, hlen]
      omega
    · exact recordAt_eventsBody _ ((List.getElem?_take_of_lt hk).trans hr)
  case idle =>
    rw [show exec .transmissionEnd s = .next s.granted.takeTransmissionEnd from rfl, granted_of_noGrantDue hn,
      State.takeTransmissionEnd, hs]
  case ended =>
    rw [show exec .transmissionEnd s = .next s.granted.takeTransmissionEnd from rfl,
      granted_of_noGrantDue (.inl (by rw [hs]; rfl)), State.takeTransmissionEnd, hs]
    rfl
  case free => rw [State.loopOut, hs]
  case past =>
    rw [State.loopOut, hs]
    exact if_neg (Nat.not_lt.2 hover)

end Sys2Proof.Machine
end

section
/-! Characters on LOOP IN (R152, R155, R156): the start bit, the ten bit times with the controller's own events in
them, and the byte taken at their end. -/

namespace Sys2Proof.Machine

/-! ### The receiver is left alone by the controller's own events (R155) -/

section

variable (s : State)

theorem takeStarted_receiver : s.takeStarted.port.receiver = s.port.receiver := by
  unfold State.takeStarted
  split <;> rfl

theorem takeTransmissionEnd_receiver : s.takeTransmissionEnd.port.receiver = s.port.receiver := by
  unfold State.takeTransmissionEnd
  split <;> rfl

theorem takeLateBound_receiver : s.takeLateBound.port.receiver = s.port.receiver := by
  unfold State.takeLateBound
  split
  · rfl
  · rfl
  · rw [lateBoundExpires_frame]
    rfl

theorem takeDwellEnd_receiver (currents : BitVec 256) :
    (s.takeDwellEnd currents).port.receiver = s.port.receiver := by
  unfold State.takeDwellEnd
  repeat' split
  · rw [endDwell_eq, dwellEnded_same]
    rfl
  · rfl
  · rfl

theorem takeHoldExpiry_receiver : s.takeHoldExpiry.port.receiver = s.port.receiver := by
  unfold State.takeHoldExpiry
  split <;> rfl

theorem takePhaseEnd_receiver (c : Cadence) (currents : BitVec 256) :
    (s.takePhaseEnd c currents).port.receiver = s.port.receiver := by
  unfold State.takePhaseEnd
  split
  · rw [endPhase_frame]
    rfl
  · rfl

theorem takeDebounce_receiver (i : Fin 8) : (s.takeDebounce i).port.receiver = s.port.receiver := by
  unfold State.takeDebounce
  split
  · rw [debounceExpires_frame]
    rfl
  · rfl

theorem takeSenseTimer_receiver (currents : BitVec 256) :
    (s.takeSenseTimer currents).port.receiver = s.port.receiver := by
  unfold State.takeSenseTimer State.senseTimer
  dsimp only
  split
  · rw [sense_eq]
    rfl
  · rfl

/-- No own event but the expiry of the gap timer has a say in the receiver. -/
theorem take_receiver {e : OwnEvent} (he : e ≠ .gap) (currents : BitVec 256) :
    (e.take currents s).port.receiver = s.port.receiver := by
  rw [← s.granted_receiver]
  cases e with
  | grant => rfl
  | gap => exact absurd rfl he
  | started => exact takeStarted_receiver _
  | sent => exact takeTransmissionEnd_receiver _
  | lateBound => exact takeLateBound_receiver _
  | dwell => exact takeDwellEnd_receiver _ currents
  | hold => exact takeHoldExpiry_receiver _
  | phase c => exact takePhaseEnd_receiver _ c currents
  | debounce i => exact takeDebounce_receiver _ i
  | sense => exact takeSenseTimer_receiver _ currents

end

theorem happen_receiver {s : State} {e : OwnEvent} (he : e ≠ .gap) :
    (s.happen e).port.receiver = s.port.receiver := take_receiver s.drawCurrents he _

/-- An own event that is due happens at the moment standing. -/
theorem happen_clock {s : State} {e : OwnEvent} (h : Due s e) : (s.happen e).clock = s.clock := by
  have hdrawn : Due s.drawCurrents e := by cases e <;> exact h
  exact congrArg Prod.fst (take_clockAndQueue hdrawn s.freeCurrents)

theorem passTime_of_ownEvent_none {s : State} (h : s.ownEvent = none) :
    s.passTime = { s with clock := s.nextMoment } := by
  rw [State.passTime, State.advanceTo, Nat.max_eq_right (Nat.le_of_lt (not_due_before h).1)]

/-- The grant is the first own event asked for, so none is due where no own event is. -/
theorem noGrantDue_of_ownEvent_none {s : State} (h : s.ownEvent = none) : NoGrantDue s := by
  by_contra hn
  have hsome := ownEvent_isSome (s := s) (e := .grant) hn
  rw [h] at hsome
  exact Bool.false_ne_true hsome

/-- The receiver has a say in no own event but the expiry of the gap timer. -/
theorem due_withReceiver (s : State) (r : Receiver) {e : OwnEvent} (he : e ≠ .gap) :
    Due (s.withReceiver r) e ↔ Due s e := by
  cases e with
  | gap => exact absurd rfl he
  | _ => exact Iff.rfl

/-! ### A stretch of the controller's own time within a frame (R156) -/

/-- What a stretch of the controller's own time comes to, while the gap timer does not expire: a run of its own
events at whose end no grant is due, or the bound on their number met and the clock moved on. -/
structure StretchEnds (moment n : Nat) (s ended : State) (k : Nat) (m : State) : Prop where
  run : OwnRun k s m
  few : k ≤ n
  receiver : m.port.receiver = s.port.receiver
  inTime : m.clock ≤ moment
  ends : (ended = m ∧ m.clock = moment ∧ NoGrantDue m) ∨ (k = n ∧ ended = { m with clock := moment })

theorem passUntil_stretch (moment : Nat) : ∀ (n : Nat) (s : State), s.clock ≤ moment →
    (∀ g, s.port.receiver.gapEnds = some g → moment < g) →
    ∃ k m, StretchEnds moment n s (s.passUntil moment n) k m
  | 0, s, hclock, _ => by
    refine ⟨0, s, .done s, Nat.le_refl 0, rfl, hclock, .inr ⟨rfl, ?_⟩⟩
    rw [State.passUntil, State.advanceTo, Nat.max_eq_right hclock]
  | n + 1, s, hclock, hgap => by
    unfold State.passUntil
    split
    next e he =>
      have hdue := ownEvent_due he
      have hne : e ≠ .gap := by
        rintro rfl
        obtain ⟨g, hg, hreached⟩ := hdue
        have := hgap g ((gapEnds_iff _ g).2 hg)
        omega
      obtain ⟨k, m, h⟩ := passUntil_stretch moment n (s.happen e) ((happen_clock hdue).trans_le hclock)
        (by rwa [happen_receiver hne])
      exact ⟨k + 1, m, .event k s _ m e s.freeCurrents _ hdue (exec_row ..) h.run, Nat.succ_le_succ h.few,
        h.receiver.trans (happen_receiver hne), h.inTime,
        h.ends.imp_right fun ⟨hk, hm⟩ => ⟨congrArg _ hk, hm⟩⟩
    next hnone =>
      obtain ⟨hahead, hquiet⟩ := not_due_before hnone
      split
      next hnext =>
        rw [passTime_of_ownEvent_none hnone]
        obtain ⟨k, m, h⟩ := passUntil_stretch moment n { s with clock := s.nextMoment } (Nat.le_of_lt hnext) hgap
        exact ⟨k + 1, m, .time k s m _ hahead hquiet h.run, Nat.succ_le_succ h.few, h.receiver, h.inTime,
          h.ends.imp_right fun ⟨hk, hm⟩ => ⟨congrArg _ hk, hm⟩⟩
      next hnext =>
        have hidle := noGrantDue_of_ownEvent_none hnone
        rw [State.advanceTo, Nat.max_eq_right hclock]
        rcases Nat.eq_or_lt_of_le hclock with hnow | hlater
        · exact ⟨0, s, .done s, Nat.zero_le _, rfl, hclock, .inl ⟨by rw [← hnow], hnow, hidle⟩⟩
        · exact ⟨1, { s with clock := moment }, .time 0 s _ moment hlater
            (fun e c h0 h1 => hquiet e c h0 (by omega)) (.done _), Nat.succ_le_succ (Nat.zero_le n), rfl,
            Nat.le_refl moment, .inl ⟨rfl, rfl, hidle⟩⟩

/-- Where no own event comes due, time passes to the moment. -/
theorem passUntil_quiet (moment : Nat) : ∀ (n : Nat) (s : State), s.clock < moment →
    (∀ e c, s.clock ≤ c → c < moment → ¬ Due { s with clock := c } e) →
    s.passUntil moment n = { s with clock := moment }
  | 0, s, hclock, _ => by
    rw [State.passUntil, State.advanceTo, Nat.max_eq_right (Nat.le_of_lt hclock)]
  | n + 1, s, hclock, hquiet => by
    have hnone : s.ownEvent = none := by
      cases hown : s.ownEvent with
      | none => rfl
      | some e => exact absurd (ownEvent_due hown) (hquiet e s.clock (Nat.le_refl _) hclock)
    rw [State.passUntil, hnone]
    dsimp only
    split
    next hnext =>
      have hahead := (not_due_before hnone).1
      rw [passTime_of_ownEvent_none hnone,
        passUntil_quiet moment n { s with clock := s.nextMoment } hnext
          fun e c h0 => hquiet e c (Nat.le_of_lt (Nat.lt_of_lt_of_le hahead h0))]
    next => rw [State.advanceTo, Nat.max_eq_right (Nat.le_of_lt hclock)]

/-! ### The start bit (R156) -/

theorem gapEnds_gapUntil {r : Receiver} {moment g : Nat} (h : (r.gapUntil moment).gapEnds = some g) :
    g = moment := by
  cases r with
  | hunting => exact nomatch h
  | length _ => exact (Option.some.inj h).symm
  | collecting _ _ _ => exact (Option.some.inj h).symm

theorem withReceiver_self {s : State} {r : Receiver} (h : s.port.receiver = r) : s.withReceiver r = s := by
  subst h
  rfl

/-- A start bit in time drops the gap timer, which can next expire 30 bit times after the character. -/
theorem startBit_inTime {s : State} (h : ∀ g, s.port.receiver.gapEnds = some g → s.clock ≤ g) :
    s.startBit = s.withReceiver (s.port.receiver.gapUntil (s.clock + 40)) := by
  unfold State.startBit
  dsimp only
  split
  next g hg => exact if_neg (Nat.not_lt.2 (h g hg))
  next => rfl

/-- A start bit after the gap finds the frame TRUNCATED. -/
theorem startBit_late {s : State} {g : Nat} (hg : s.port.receiver.gapEnds = some g) (h : g < s.clock) :
    s.startBit = s.frameError := by
  have htaken : s.takeTruncated = s.frameError := by
    rw [takeTruncated_of_gapEnds hg, advanceTo_of_reached (Nat.le_of_lt h)]
  rw [State.startBit, hg, ← htaken]
  exact if_pos h

theorem startBit_of_hunting {s : State} (h : s.port.receiver = .hunting) : s.startBit = s := by
  rw [startBit_inTime fun g hg => by rw [h] at hg; exact nomatch hg]
  exact withReceiver_self (h.trans (by rw [h]; rfl))

/-! ### The character (R152) -/

/-- The state at the end of a character whose start bit comes in time, before its byte is taken. -/
def State.characterEnd (s : State) : State :=
  ((s.withReceiver (s.port.receiver.gapUntil (s.clock + 40))).passUntil (s.clock + 10) 64).granted

theorem exec_byteReceived {s : State} (hn : NoGrantDue s) (c : Character) : exec (.byteReceived c) s = .next
    ((s.startBit.granted.passUntil (s.clock + 10) 64).granted.receiveByte (characterByte c)) := by
  rw [show exec (.byteReceived c) s = .next (s.granted.takeCharacter c) from rfl, granted_of_noGrantDue hn]
  rfl

/-- A character in time: its byte is taken at its end. -/
theorem exec_byteReceived_inTime {s : State} (hn : NoGrantDue s) {c : Character} {b : Byte} (hc : Carries c b)
    (h : ∀ g, s.port.receiver.gapEnds = some g → s.clock ≤ g) :
    exec (.byteReceived c) s = .next (s.characterEnd.receiveByte b) := by
  have hbegun : NoGrantDue s.startBit := by rw [startBit_inTime h]; exact hn
  rw [exec_byteReceived hn, granted_of_noGrantDue hbegun, startBit_inTime h, characterByte_eq hc]
  rfl

theorem frameError_receiver (s : State) : s.frameError.port.receiver = .hunting := by
  unfold State.frameError State.countFrameError
  dsimp only
  repeat' split
  all_goals rfl

/-- A character after the gap: the frame is TRUNCATED, and the character comes to a receiver that hunts. -/
theorem exec_byteReceived_late {s : State} (hn : NoGrantDue s) {g : Nat}
    (hg : s.port.receiver.gapEnds = some g) (h : g < s.clock) (c : Character) :
    exec (.byteReceived c) s = exec (.byteReceived c) s.frameError := by
  have hclock : s.frameError.granted.clock = s.clock := by
    rw [State.granted_clock]
    exact congrArg Prod.fst (frameError_clockAndQueue s)
  have hhunts : s.frameError.granted.port.receiver = .hunting := by
    rw [State.granted_receiver, frameError_receiver]
  rw [← exec_granted _ s.frameError, exec_byteReceived hn, exec_byteReceived (noGrantDue_granted _),
    startBit_late hg h, startBit_of_hunting hhunts, granted_granted, hclock]

/-- The ten bit times of a character: a run of own events, and the grant where their number is bounded. -/
theorem characterEnd_run {s : State} {r : Receiver} (hr : r = s.port.receiver.gapUntil (s.clock + 40)) :
    ∃ m n, OwnRun n { s with port := { s.port with receiver := r } } m ∧ n ≤ 64 ∧
      (s.characterEnd = m ∨
        (n = 64 ∧ exec .grant { m with clock := s.clock + 10 } = .next s.characterEnd)) ∧
      s.characterEnd.clock = s.clock + 10 ∧ s.characterEnd.port.receiver = r := by
  subst hr
  obtain ⟨k, m, h⟩ := passUntil_stretch (s.clock + 10) 64
    (s.withReceiver (s.port.receiver.gapUntil (s.clock + 40))) (Nat.le_add_right _ _)
    fun g hg => by have := gapEnds_gapUntil hg; omega
  refine ⟨m, k, h.run, h.few, ?_⟩
  unfold State.characterEnd
  rcases h.ends with ⟨hended, hclock, hidle⟩ | ⟨hk, hended⟩
  · rw [hended, granted_of_noGrantDue hidle]
    exact ⟨.inl rfl, hclock, h.receiver⟩
  · rw [hended, State.granted_clock, State.granted_receiver]
    exact ⟨.inr ⟨hk, rfl⟩, rfl, h.receiver⟩

/-- Ten bit times in which no own event comes due. -/
theorem characterEnd_quiet {s : State} (hn : NoGrantDue s) (hquiet : QuietUntil (s.clock + 10) s) :
    s.characterEnd = { s with
      clock := s.clock + 10
      port := { s.port with receiver := s.port.receiver.gapUntil (s.clock + 40) } } := by
  have hpass := passUntil_quiet (s.clock + 10) 64
    (s.withReceiver (s.port.receiver.gapUntil (s.clock + 40))) (Nat.lt_add_of_pos_right (by decide))
    fun e c h0 h1 hdue => ?none
  · rw [State.characterEnd, hpass]
    exact granted_of_noGrantDue hn
  · by_cases he : e = .gap
    · subst he
      obtain ⟨g, hg, hreached⟩ := hdue
      have hends := gapEnds_gapUntil ((gapEnds_iff _ g).2 hg)
      have hc : g ≤ c := hreached
      omega
    · exact hquiet e he c h0 h1 ((due_withReceiver { s with clock := c } _ he).1 hdue)

theorem noGrantDue_characterEnd (s : State) : NoGrantDue s.characterEnd := noGrantDue_granted _

end Sys2Proof.Machine
end

section
/-! The receiver (R155 to R157): what the byte of each character brings, and a whole frame received character by
character (R153, R154). -/

namespace Sys2Proof.Machine

/-! ### The byte of a character, by the receiver's state (R155) -/

section

variable {s : State} (b : Byte)

theorem receiveByte_hunting (h : s.port.receiver = .hunting) :
    s.receiveByte b = if b = 0xA9 then s.withReceiver (.length (s.clock + 30)) else s := by
  rw [State.receiveByte, h]
  rfl

theorem receiveByte_length {g : Nat} (h : s.port.receiver = .length g) : s.receiveByte b =
    if 3 ≤ b.toNat ∧ b.toNat ≤ 120 then s.withReceiver (.collecting (b.toNat + 2) [b] (s.clock + 30))
    else s.frameError := by
  rw [State.receiveByte, h]
  rfl

theorem receiveByte_collecting {n g : Nat} {got : List Byte} (h : s.port.receiver = .collecting n got g) :
    s.receiveByte b = if n ≤ 1 then s.judgeFrame (got ++ [b])
      else s.withReceiver (.collecting (n - 1) (got ++ [b]) (s.clock + 30)) := by
  rw [State.receiveByte, h]
  rfl

end

/-- A whole frame is judged by its CRC: it arrives, or it is a frame error (R157). -/
theorem judgeFrame_checked (s : State) (f : Frame) (hi lo : Byte) :
    s.judgeFrame (f.checked ++ [hi, lo]) = if crcOf f.checked = hi ++ lo then s.arrive f else s.frameError := by
  have hcontent : (f.checked ++ [hi, lo]).take ((f.checked ++ [hi, lo]).length - 2) = f.checked := by
    simp
  have hhigh : (f.checked ++ [hi, lo]).getD ((f.checked ++ [hi, lo]).length - 2) 0 = hi := by
    simp
  have hlow : (f.checked ++ [hi, lo]).getD ((f.checked ++ [hi, lo]).length - 1) 0 = lo := by
    simp
  rw [State.judgeFrame, hcontent, hhigh, hlow, crc16_eq]
  rfl

/-- Settles O6: the start bit late or in time, then the byte at the character's end by the receiver's state. -/
theorem receiverDelineatesFrames : Obligations.ReceiverDelineatesFrames := by
  intro c b s hn hc
  refine ⟨fun stop => rfl, fun g hg hlate => ?late, fun hgap => ?inTime⟩
  case late =>
    have hends := (gapEnds_iff _ g).2 hg
    refine ⟨_, exec_truncated hn, ?_⟩
    rw [exec_byteReceived_late hn hends hlate, takeTruncated_of_gapEnds hends,
      advanceTo_of_reached (Nat.le_of_lt hlate)]
  case inTime =>
    have htaken := exec_byteReceived_inTime hn hc fun g hg => hgap g ((gapEnds_iff _ g).1 hg)
    have hv := noGrantDue_characterEnd s
    obtain ⟨r, hr⟩ : ∃ r, r = s.port.receiver.gapUntil (s.clock + 40) := ⟨_, rfl⟩
    obtain ⟨m, n, hrun, hfew, hended, hclock, hreceiver⟩ := characterEnd_run hr
    rw [htaken]
    refine ⟨r, m, s.characterEnd, n, fun h => by rw [hr, h]; rfl, fun g h => by rw [hr, h]; rfl,
      fun k got g h => by rw [hr, h]; rfl, hrun, hfew, hended, hclock, hv, hreceiver,
      fun hquiet => by rw [characterEnd_quiet hn hquiet, hr], fun h => ?_,
      fun g h => ⟨fun hfits => ?_, fun hbad => ?_⟩,
      fun k got g h => ⟨fun hmore => ?_, fun f hi hlast hgot => ?_⟩⟩
    all_goals rw [h] at hreceiver
    · rw [receiveByte_hunting b hreceiver]
      rfl
    · rw [receiveByte_length b hreceiver, if_pos hfits]
      rfl
    · rw [receiveByte_length b hreceiver, if_neg (by omega), exec_frameError (.inl rfl) hv]
    · rw [receiveByte_collecting b hreceiver, if_neg (Nat.not_le.2 hmore)]
      rfl
    · have hframe := judgeFrame_checked s.characterEnd f hi b
      rw [receiveByte_collecting b hreceiver, if_pos hlast.le, hgot, List.append_assoc, List.singleton_append,
        hframe, exec_frame_of_noGrantDue rfl hv, exec_frameError (.inr rfl) hv]
      exact ⟨fun hgood => by rw [if_pos hgood], fun hbad => by rw [if_neg hbad]⟩

/-! ### A frame character by character (R153 to R157) -/

/-- A section at a moment, with its receiver in a state. -/
def State.listening (s : State) (moment : Nat) (r : Receiver) : State :=
  { s with clock := moment, port := { s.port with receiver := r } }

theorem listening_self {s : State} {r : Receiver} (h : s.port.receiver = r) : s.listening s.clock r = s := by
  subst h
  rfl

theorem execAll_cons {i : Instr} {s t : State} (h : exec i s = .next t) (rest : List Instr) :
    execAll (i :: rest) s = execAll rest t := by
  rw [execAll, h]

/-- The arrival of a frame asks nothing of the receiver, which hunts after it (R155). -/
theorem arrive_listening (s : State) (moment : Nat) (r : Receiver) (f : Frame) :
    (s.listening moment r).arrive f = State.arrive f { s with clock := moment } := rfl

section

variable {s : State} (hn : NoGrantDue s) {limit : Nat} (hquiet : QuietUntil limit s)
include hn hquiet

/-- A character received while no own event comes due, its start bit in time. -/
theorem exec_byteReceived_listening {c : Character} {b : Byte} (hc : Carries c b) {moment : Nat} {r : Receiver}
    (hgap : ∀ g, r.gapEnds = some g → moment ≤ g) (hstart : s.clock ≤ moment) (hend : moment + 10 ≤ limit) :
    exec (.byteReceived c) (s.listening moment r) =
      .next ((s.listening (moment + 10) (r.gapUntil (moment + 40))).receiveByte b) := by
  have hquiet' : QuietUntil (moment + 10) (s.listening moment r) := fun e he c h0 h1 hdue =>
    hquiet e he c (hstart.trans h0) (Nat.lt_of_lt_of_le h1 hend) 
      ((due_withReceiver { s with clock := c } r he).1 hdue)
  rw [exec_byteReceived_inTime (s := s.listening moment r) hn hc hgap,
    characterEnd_quiet (s := s.listening moment r) hn hquiet']
  rfl

/-- LEAD begins a frame (R155). -/
theorem exec_lead_listening {c : Character} (hc : Carries c 0xA9) {moment : Nat} (hstart : s.clock ≤ moment)
    (hend : moment + 10 ≤ limit) : exec (.byteReceived c) (s.listening moment .hunting) =
      .next (s.listening (moment + 10) (.length (moment + 10 + 30))) := by
  rw [exec_byteReceived_listening hn hquiet hc (r := .hunting) (fun g hg => nomatch hg) hstart hend,
    receiveByte_hunting _ rfl, if_pos rfl]
  rfl

/-- LENGTH says how many bytes are to come, with those of the CRC (R155). -/
theorem exec_length_listening {c : Character} {b : Byte} (hc : Carries c b) (hb : 3 ≤ b.toNat ∧ b.toNat ≤ 120)
    {moment : Nat} (hstart : s.clock ≤ moment) (hend : moment + 10 ≤ limit) :
    exec (.byteReceived c) (s.listening moment (.length (moment + 30))) =
      .next (s.listening (moment + 10) (.collecting (b.toNat + 2) [b] (moment + 10 + 30))) := by
  rw [exec_byteReceived_listening hn hquiet hc (fun g hg => by cases hg; omega) hstart hend,
    receiveByte_length _ rfl, if_pos hb]
  rfl

/-- The bytes to come of a frame, collected one after another, are judged at the end of the last. -/
theorem execAll_collecting {line : List Character} {bytes : List Byte} (hline : List.Forall₂ Carries line bytes)
    (hsome : bytes ≠ []) (got : List Byte) {moment : Nat} (hstart : s.clock ≤ moment)
    (hend : moment + 10 * bytes.length ≤ limit) : ∃ r,
    execAll (line.map .byteReceived) (s.listening moment (.collecting bytes.length got (moment + 30))) =
      .next ((s.listening (moment + 10 * bytes.length) r).judgeFrame (got ++ bytes)) := by
  induction hline generalizing got moment with
  | nil => exact absurd rfl hsome
  | @cons c b line bytes hc hline ih =>
    rw [List.length_cons] at hend ⊢
    have hexec := exec_byteReceived_listening hn hquiet hc
      (r := .collecting (bytes.length + 1) got (moment + 30)) (moment := moment)
      (fun g hg => by cases hg; omega) hstart (by omega)
    rw [receiveByte_collecting b rfl] at hexec
    rw [List.map_cons, execAll_cons hexec]
    cases hline with
    | nil => exact ⟨_, rfl⟩
    | @cons c' b' line' bytes' hc' hline' =>
      obtain ⟨r, hr⟩ := ih (List.cons_ne_nil b' bytes') (got ++ [b]) (moment := moment + 10) (by omega) (by omega)
      refine ⟨r, ?_⟩
      rw [if_neg (show ¬ (b' :: bytes').length + 1 ≤ 1 by simp)]
      refine Eq.trans hr ?_
      rw [List.append_assoc, List.singleton_append,
        show moment + 10 + 10 * (b' :: bytes').length = moment + 10 * ((b' :: bytes').length + 1) by omega]

end

/-- The LENGTH of a frame counts the bytes of its KIND, addresses and body (R153). -/
theorem lengthByte_toNat {f : Frame} (h : f.body.length ≤ 117) :
    (BitVec.ofNat 8 (f.body.length + 3)).toNat = f.body.length + 3 := by
  rw [BitVec.toNat_ofNat]
  omega

/-- The CRC of a frame as its two bytes are laid out (R154). -/
theorem append_extract (crc : BitVec 16) : crc = crc.extractLsb' 8 8 ++ crc.extractLsb' 0 8 := by
  rw [BitVec.extractLsb'_append_extractLsb'_eq_extractLsb' (by decide)]
  simp

/-- The bytes of a frame behind its LENGTH: KIND, DEST, SRC, the body and the CRC (R153). -/
def Frame.afterLength (f : Frame) : List Byte :=
  [f.kind, f.dest, f.src] ++ f.body ++
    [(crcOf f.checked).extractLsb' 8 8, (crcOf f.checked).extractLsb' 0 8]

theorem Frame.sentAs_eq (f : Frame) :
    f.sentAs = 0xA9 :: BitVec.ofNat 8 (f.body.length + 3) :: f.afterLength := rfl

theorem Frame.length_then_afterLength (f : Frame) : [BitVec.ofNat 8 (f.body.length + 3)] ++ f.afterLength =
    f.checked ++ [(crcOf f.checked).extractLsb' 8 8, (crcOf f.checked).extractLsb' 0 8] := rfl

theorem Frame.afterLength_length (f : Frame) : f.afterLength.length = f.body.length + 5 := by
  simp [Frame.afterLength]

/-- A frame whose bytes are all received arrives: its CRC is good (R157). -/
theorem judgeFrame_sent (s : State) (f : Frame) :
    s.judgeFrame ([BitVec.ofNat 8 (f.body.length + 3)] ++ f.afterLength) = s.arrive f := by
  rw [f.length_then_afterLength, judgeFrame_checked, if_pos (append_extract _)]

/-- Settles O7: LEAD, LENGTH, the bytes collected, and the judgement, which finds the CRC good. -/
theorem receivingAFramesBytesIsItsArrival : Obligations.ReceivingAFramesBytesIsItsArrival := by
  intro f line s hhunts hbody hn hline hquiet
  rw [f.sentAs_length] at hquiet ⊢
  rw [f.sentAs_eq] at hline
  obtain _ | ⟨hlead, _ | ⟨hlength, hline⟩⟩ := hline
  have hlength_toNat := lengthByte_toNat hbody
  have hlen := f.afterLength_length
  have hexec := exec_lead_listening hn hquiet hlead (Nat.le_refl s.clock) (by omega)
  have hexec' := exec_length_listening hn hquiet hlength (moment := s.clock + 10) (by omega) (by omega) (by omega)
  obtain ⟨r, hcollected⟩ := execAll_collecting hn hquiet hline (List.ne_nil_of_length_eq_add_one hlen)
    [BitVec.ofNat 8 (f.body.length + 3)] (moment := s.clock + 10 + 10) (by omega) (by omega)
  rw [listening_self hhunts] at hexec
  rw [hlength_toNat] at hexec'
  rw [hlen, judgeFrame_sent, arrive_listening,
    show s.clock + 10 + 10 + 10 * (f.body.length + 5) = s.clock + 10 * (f.body.length + 7) by omega] at hcollected
  rw [List.map_cons, execAll_cons hexec, List.map_cons, execAll_cons hexec',
    exec_frame_of_noGrantDue rfl (s := { s with clock := s.clock + 10 * (f.body.length + 7) }) hn]
  exact hcollected

end Sys2Proof.Machine
end

section
/-! How the Command Unit takes a command before the command's own checks: a body with no code, an unknown code,
a wrong length, and no reply slot free (R172, R174, R175). -/

namespace Sys2Proof.Machine

/-! ### A COMMAND body with no code (R172) -/

theorem takeAddressedBody_of_short {body : List Byte} (h : body.length < 2) (station : Byte) (s : State) :
    s.takeAddressedBody station body = s := by
  match body, h with
  | [], _ => rfl
  | [_], _ => rfl

theorem takeBroadcastBody_of_short {body : List Byte} (h : body.length < 2) (s : State) :
    s.takeBroadcastBody body = s := by
  match body, h with
  | [], _ => rfl
  | [_], _ => rfl

/-- A COMMAND frame of the loop head under this station's number goes to the Command Unit (R162, row 4). -/
theorem arrive_addressedCommand {s : State} {n : Byte} (ha : AssignedAs s n) (body : List Byte) :
    s.arrive ⟨kindCommand, n, 63, body⟩ = s.received.takeAddressedBody n body := by
  obtain ⟨hs, -, h63⟩ := ha
  rw [arrive_eq_decision hs, State.forwardingDecision, if_neg h63.symm, if_neg fun h => Bool.false_ne_true h.1,
    if_neg fun h => h.2 rfl, if_pos rfl, if_pos rfl]

/-- A broadcast COMMAND frame of the loop head is forwarded and goes to the Command Unit (R162, row 5). -/
theorem arrive_broadcastCommand {s : State} {n : Byte} (ha : AssignedAs s n) (body : List Byte) :
    s.arrive ⟨kindCommand, 0, 63, body⟩ = (s.passedOn ⟨kindCommand, 0, 63, body⟩).takeBroadcastBody body := by
  obtain ⟨hs, h0, h63⟩ := ha
  rw [arrive_eq_decision hs, State.forwardingDecision, if_neg h63.symm, if_neg fun h => Bool.false_ne_true h.1,
    if_neg fun h => h.2 rfl, if_pos rfl, if_neg h0.symm, if_pos rfl, received_forward hs]

/-! ### Unknown codes and wrong lengths (R175) -/

theorem execute_of_unknown {code : Byte} (h : commandRule code = none) (tag : Byte) (params : List Byte)
    (s : State) : s.execute tag code params = .refuse s .unknownCommand := by
  rw [State.execute, h]

theorem execute_of_wrongLength {code : Byte} {rule : CommandRule} (hc : commandRule code = some rule)
    {params : List Byte} (hl : params.length ≠ rule.length) (tag : Byte) (s : State) :
    s.execute tag code params = .refuse s .badLength := by
  rw [State.execute, hc]
  exact if_neg hl

/-- The rule of a row of the table: its length, and whether it is broadcast-allowed. -/
theorem commandRule_of_mem {r : CommandRow} (hr : r ∈ commandTable) :
    ∃ rule, commandRule r.code = some rule ∧ rule.length = r.length ∧ rule.broadcast = r.broadcast := by
  have hlengths : ∀ r ∈ commandTable, (commandRule r.code).map (·.length) = some r.length := by decide +kernel
  obtain ⟨rule, hrule, hbroadcast⟩ := Option.map_eq_some_iff.1 (commandRule_broadcast_of_mem r hr)
  have hlength := hlengths r hr
  rw [hrule] at hlength
  exact ⟨rule, hrule, Option.some.inj hlength, hbroadcast⟩

/-- A row of the table is the arrival of the command with its code. -/
theorem exec_commandRow {r : CommandRow} (hr : r ∈ commandTable) (h : CommandHead) (params : List Byte)
    (s : State) : exec (r.row h params) s = s.arriveCommand h r.code params :=
  exec_frameOf (frameOf_commandRow h params r hr) s

/-- Settles O12: the body without a code, then the two checks of `execute`. -/
theorem checksBeforeTheCommandsOwn : Obligations.ChecksBeforeTheCommandsOwn := by
  refine ⟨fun n body s ha hn hshort => ⟨?_, ?_⟩, fun h code params s ha hcode => ?_,
    fun r hr h params s ha hl => ?_⟩
  · rw [exec_frame_of_noGrantDue rfl hn, arrive_addressedCommand ha, takeAddressedBody_of_short hshort,
      received_of_station ha.1]
  · rw [exec_frame_of_noGrantDue rfl hn, arrive_broadcastCommand ha, takeBroadcastBody_of_short hshort]
    rfl
  · exact arriveCommand_unread ha (execute_of_unknown (commandRule_of_not_mem hcode) _ _ _)
  · obtain ⟨rule, hrule, hlength, -⟩ := commandRule_of_mem hr
    rw [exec_commandRow hr]
    exact arriveCommand_unread ha (execute_of_wrongLength hrule (hlength.symm ▸ hl) _ _)

/-! ### No reply slot free (R174) -/

/-- Settles O13: whatever the code, the frame is dropped before it is looked at. -/
theorem commandWithNoSlotIsDropped : Obligations.CommandWithNoSlotIsDropped := by
  intro h code params s ha hn hhead hfull i hi
  have hdropped : s.received.dropCommand = { s with
      port := { s.port with receiver := .hunting, badRun := 0 }
      commands := { s.commands with
        dropped := if s.commands.dropped < 255 then s.commands.dropped + 1 else s.commands.dropped }
      reports := s.reports.caused s.stamp .commandOverrun } := by
    rw [received_of_station ha.1, Reports.caused_eq]
    rfl
  obtain ⟨code', hexec⟩ : ∃ code', exec i s = s.arriveCommand h code' params := by
    rcases hi with rfl | ⟨r, hr, rfl⟩
    · exact ⟨code, rfl⟩
    · exact ⟨r.code, exec_commandRow hr h params s⟩
  rw [hexec, arriveCommand_dropped ha hn hhead hfull, hdropped]

end Sys2Proof.Machine
end

section
/-! STATUS (R180): the snapshot of the part, byte by byte (R200, 11.4.2). -/

namespace Sys2Proof.Machine

/-! ### Fields of laid out bytes, by their places -/

theorem field8_of_byte {l : List Byte} {i n : Nat} (h : l[i]? = some (byteOf n)) : field8 l i = n % 256 := by
  rw [field8, List.getD_eq_getElem?_getD, h]
  exact byteOf_toNat n

/-- A number that fits in a byte is read back whole. -/
theorem field8_of_small {l : List Byte} {i n : Nat} (h : l[i]? = some (byteOf n)) (hn : n < 256) :
    field8 l i = n := (field8_of_byte h).trans (Nat.mod_eq_of_lt hn)

theorem field16_of_bytes {l : List Byte} {i n : Nat} (hhigh : l[i]? = some (byteOf (n / 256)))
    (hlow : l[i + 1]? = some (byteOf n)) : field16 l i = n % 65536 := by
  rw [field16, field8_of_byte hhigh, field8_of_byte hlow]
  omega

theorem Supervision.code_lt (x : Supervision) : x.code < 256 := by cases x <;> decide

theorem Horn.code_lt (x : Horn) : x.code < 256 := by cases x <;> decide

/-! ### The snapshot as a list of bytes (R200, 11.4.2) -/

/-- The first thirty-six bytes of the snapshot, those before the sweep's. -/
def State.statusHead (s : State) : List Byte :=
  [s.port.station.getD 0, s.port.straps.zeroExtend 8, byteOf s.supervisor.state.code,
    byteOf s.supervisor.misses, byteOf s.supervisor.skews,
    byteOf (s.supervisor.cycle / 256), byteOf s.supervisor.cycle,
    s.reports.latched, s.reports.mask, byteOf s.reports.lost, byteOf s.reports.queue.length,
    byteOf s.commands.dropped, byteOf s.commands.replies.length, byteOf s.commands.reserved,
    byteOf (s.port.frameErrors / 256), byteOf s.port.frameErrors,
    byteOf s.port.badRun, byteOf s.port.returned, byteOf s.port.foreign,
    byteOf (s.port.forwardDrops / 256), byteOf s.port.forwardDrops,
    byteOf (s.unmapped / 256), byteOf s.unmapped,
    byteOf (s.points.length / 256), byteOf s.points.length, byteOf s.outstations.length,
    byteOf (s.alarms.unack / 256), byteOf s.alarms.unack,
    byteOf (s.alarms.ringback / 256), byteOf s.alarms.ringback,
    byteOf (s.alarms.hornCount / 256), byteOf s.alarms.hornCount,
    byteOf s.alarms.horn.code, byteOf (one s.lamps.holdEnds.isSome),
    byteOf (s.holdRemaining / 256), byteOf s.holdRemaining]

/-- The three bytes of a sweep: its run state, bank and step, all 0 while it is IDLE (R200, 11.4.2). -/
def sweepBytes : Option Sweep → List Byte
  | none => [0, 0, 0]
  | some w => [if w.run = .paused then 2 else 1, byteOf w.bank, byteOf w.step]

theorem sweepBytes_length (w : Option Sweep) : (sweepBytes w).length = 3 := by cases w <;> rfl

theorem statusData_eq (s : State) :
    s.statusData = s.statusHead ++ (sweepBytes s.lamps.sweep ++ bytes16 s.faultedLamps) := by
  simp only [State.statusData, State.statusHead, bytes16, List.cons_append, List.nil_append]
  split
  next hidle => rw [hidle]; rfl
  next hrunning => rw [hrunning]; rfl
  next hpaused => rw [hpaused]; rfl

theorem statusData_length (s : State) : s.statusData.length = 41 := by
  rw [statusData_eq, List.length_append, List.length_append, sweepBytes_length]
  rfl

/-! ### The blocks of the snapshot, in the order of 11.4.2 -/

theorem statusData_station {s : State} {n : Byte} (h : s.port.station = some n) :
    s.statusData[0]? = some n := by
  rw [statusData_eq]
  exact congrArg (fun x : Option Byte => some (x.getD 0)) h

theorem statusData_straps (s : State) : field8 s.statusData 1 = s.port.straps.toNat := by
  rw [statusData_eq]
  change (s.port.straps.zeroExtend 8).toNat = s.port.straps.toNat
  exact BitVec.toNat_setWidth_of_le (by decide)

theorem statusData_supervisor (s : State) :
    field8 s.statusData 2 = s.supervisor.state.code ∧ field8 s.statusData 3 = s.supervisor.misses % 256 ∧
    field8 s.statusData 4 = s.supervisor.skews % 256 ∧ field16 s.statusData 5 = s.supervisor.cycle % 65536 := by
  rw [statusData_eq]
  exact ⟨field8_of_small rfl s.supervisor.state.code_lt, field8_of_byte rfl, field8_of_byte rfl,
    field16_of_bytes rfl rfl⟩

theorem statusData_reports (s : State) :
    s.statusData[7]? = some s.reports.latched ∧ s.statusData[8]? = some s.reports.mask ∧
    field8 s.statusData 9 = s.reports.lost % 256 ∧ field8 s.statusData 10 = s.reports.queue.length % 256 := by
  rw [statusData_eq]
  exact ⟨rfl, rfl, field8_of_byte rfl, field8_of_byte rfl⟩

theorem statusData_commands (s : State) (h : s.commands.replies.length + s.commands.reserved < 4) :
    field8 s.statusData 11 = s.commands.dropped % 256 ∧
    field8 s.statusData 12 = s.commands.replies.length ∧ field8 s.statusData 13 = s.commands.reserved := by
  rw [statusData_eq]
  exact ⟨field8_of_byte rfl, field8_of_small rfl (by omega), field8_of_small rfl (by omega)⟩

theorem statusData_port (s : State) :
    field16 s.statusData 14 = s.port.frameErrors % 65536 ∧ field8 s.statusData 16 = s.port.badRun % 256 ∧
    field8 s.statusData 17 = s.port.returned % 256 ∧ field8 s.statusData 18 = s.port.foreign % 256 ∧
    field16 s.statusData 19 = s.port.forwardDrops % 65536 := by
  rw [statusData_eq]
  exact ⟨field16_of_bytes rfl rfl, field8_of_byte rfl, field8_of_byte rfl, field8_of_byte rfl,
    field16_of_bytes rfl rfl⟩

theorem statusData_tables (s : State) :
    field16 s.statusData 21 = s.unmapped % 65536 ∧ field16 s.statusData 23 = s.points.length % 65536 ∧
    field8 s.statusData 25 = s.outstations.length % 256 := by
  rw [statusData_eq]
  exact ⟨field16_of_bytes rfl rfl, field16_of_bytes rfl rfl, field8_of_byte rfl⟩

theorem statusData_alarms (s : State) :
    field16 s.statusData 26 = s.alarms.unack % 65536 ∧ field16 s.statusData 28 = s.alarms.ringback % 65536 ∧
    field16 s.statusData 30 = s.alarms.hornCount % 65536 ∧ field8 s.statusData 32 = s.alarms.horn.code := by
  rw [statusData_eq]
  exact ⟨field16_of_bytes rfl rfl, field16_of_bytes rfl rfl, field16_of_bytes rfl rfl,
    field8_of_small rfl s.alarms.horn.code_lt⟩

theorem statusData_hold (s : State) :
    field8 s.statusData 33 = (if s.lamps.holdEnds.isSome then 1 else 0) ∧
    (∀ e, s.lamps.holdEnds = some e → field16 s.statusData 34 = (e - s.now + 999) / 1000 % 65536) ∧
    (s.lamps.holdEnds = none → field16 s.statusData 34 = 0) := by
  rw [statusData_eq]
  have hremaining (rest : List Byte) : field16 (s.statusHead ++ rest) 34 = s.holdRemaining % 65536 :=
    field16_of_bytes rfl rfl
  refine ⟨field8_of_small rfl (by split <;> decide), fun e he => ?_, fun hnone => ?_⟩
  · rw [hremaining, State.holdRemaining, he]
  · rw [hremaining, State.holdRemaining, hnone]
    rfl

/-! ### The sweep, and the faulted lamps behind it -/

theorem field8_statusData_past_hold (s : State) (i : Nat) : field8 s.statusData (36 + i) =
    field8 (sweepBytes s.lamps.sweep ++ bytes16 s.faultedLamps) i := by
  rw [statusData_eq]
  exact field8_append_right s.statusHead _ i

theorem statusData_sweep_idle (s : State) (h : s.lamps.sweep = none) :
    field8 s.statusData 36 = 0 ∧ field8 s.statusData 37 = 0 ∧ field8 s.statusData 38 = 0 := by
  rw [field8_statusData_past_hold s 0, field8_statusData_past_hold s 1, field8_statusData_past_hold s 2, h]
  exact ⟨rfl, rfl, rfl⟩

theorem statusData_sweep (s : State) {w : Sweep} (h : s.lamps.sweep = some w) :
    field8 s.statusData 36 = (if w.run = .paused then 2 else 1) ∧ field8 s.statusData 37 = w.bank % 256 ∧
    field8 s.statusData 38 = w.step % 256 := by
  rw [field8_statusData_past_hold s 0, field8_statusData_past_hold s 1, field8_statusData_past_hold s 2, h]
  refine ⟨?_, field8_of_byte rfl, field8_of_byte rfl⟩
  change (if w.run = .paused then (2 : Byte) else 1).toNat = _
  split <;> rfl

/-- The part has 256 channels, so the count of faulted lamps fits in its two bytes. -/
theorem faultedLamps_le (s : State) : s.faultedLamps ≤ 256 :=
  (List.length_filter_le _ _).trans_eq (Vector.length_toList)

theorem statusData_faultedLamps (s : State) :
    field16 s.statusData 39 = s.lamps.channels.toList.countP fun ch => ch.fault.isSome := by
  have hfield : field16 s.statusData 39 = field16 (sweepBytes s.lamps.sweep ++ bytes16 s.faultedLamps) 3 := by
    rw [field16, field8_statusData_past_hold s 3, field8_statusData_past_hold s 4, field16]
  have hskip (i : Nat) := field8_append_right (sweepBytes s.lamps.sweep) (bytes16 s.faultedLamps) i
  rw [sweepBytes_length] at hskip
  rw [hfield, field16, hskip 0, hskip 1, List.countP_eq_length_filter]
  refine (field16_of_bytes (l := bytes16 s.faultedLamps) (i := 0) rfl rfl).trans (Nat.mod_eq_of_lt ?_)
  exact (faultedLamps_le s).trans_lt (by decide)

/-- Settles O16: the snapshot is of the state that the reception of the frame leaves, and the command changes
nothing of it. -/
theorem statusReportsTheState : Obligations.StatusReportsTheState := by
  intro h s ha
  obtain ⟨t, hexec, hans⟩ := arriveCommand_refused ha (code := 0x01) (r := .ok)
    (data := s.received.statusData) rfl (params := []) rfl rfl
  obtain ⟨hstate, hmisses, hskews, hcycle⟩ := statusData_supervisor s.received
  obtain ⟨hlatched, hmask, hlost, hqueue⟩ := statusData_reports s.received
  obtain ⟨hdropped, hreplies, hreserved⟩ := statusData_commands s.received ha.room
  obtain ⟨herrors, hbad, hreturned, hforeign, hdrops⟩ := statusData_port s.received
  obtain ⟨hunmapped, hpoints, houtstations⟩ := statusData_tables s.received
  obtain ⟨hunack, hringback, hcount, hhorn⟩ := statusData_alarms s.received
  obtain ⟨hheld, hremaining, hnotHeld⟩ := statusData_hold s.received
  have hrun : s.received.port.badRun = 0 := by rw [received_of_station ha.assigned.1]
  rw [hrun] at hbad
  exact ⟨t, s.received.statusData, hexec, hans, statusData_length _, statusData_station ha.assigned.1,
    statusData_straps _, hstate, hmisses, hskews, hcycle, hlatched, hmask, hlost, hqueue, hdropped, hreplies,
    hreserved, herrors, hbad, hreturned, hforeign, hdrops, hunmapped, hpoints, houtstations, hunack, hringback,
    hcount, hhorn, hheld, hremaining, hnotHeld, statusData_sweep_idle s.received,
    fun _ => statusData_sweep s.received, statusData_faultedLamps _⟩

end Sys2Proof.Machine
end

section
/-! Broadcast commands (R176): a broadcast-allowed command does the same whatever waits in the through FIFO and
in the Command Unit, so that a broadcast one does what the addressed one does. -/

namespace Sys2Proof.Machine

/-! ### What the through FIFO and the Command Unit have no say in -/

/-- The state with other frames in the through FIFO and another Command Unit. -/
def State.withTraffic (fifo : List Frame) (u : CommandUnit) (s : State) : State :=
  { s with port := { s.port with fifo := fifo }, commands := u }

/-- An operation that neither reads nor changes the through FIFO and the Command Unit. -/
def IgnoresTraffic (op : State → State) : Prop :=
  ∀ (fifo : List Frame) (u : CommandUnit) (s : State), op (s.withTraffic fifo u) = (op s).withTraffic fifo u

theorem IgnoresTraffic.comp {f g : State → State} (hf : IgnoresTraffic f) (hg : IgnoresTraffic g) :
    IgnoresTraffic (f ∘ g) := fun fifo u s => by
  simp only [Function.comp, hg fifo u s, hf fifo u (g s)]

theorem IgnoresTraffic.foldl {α : Type} {op : State → α → State} (h : ∀ a, IgnoresTraffic (op · a))
    (l : List α) : IgnoresTraffic fun s => l.foldl op s :=
  fun fifo u _ => List.foldl_hom (State.withTraffic fifo u) fun s a => h a fifo u s

theorem settleLamps_ignoresTraffic : IgnoresTraffic State.settleLamps := fun _ _ _ => rfl

theorem evaluatePoint_ignoresTraffic (k : Key) : IgnoresTraffic (State.evaluatePoint k) := by
  intro fifo u s
  unfold State.evaluatePoint State.applyResult
  rw [show (s.withTraffic fifo u).point k = s.point k from rfl]
  repeat' split
  all_goals rfl

theorem acknowledge_ignoresTraffic (k : Key) : IgnoresTraffic (State.acknowledge k) := by
  intro fifo u s
  unfold State.acknowledge
  rw [show (s.withTraffic fifo u).point k = s.point k from rfl]
  repeat' split
  all_goals rfl

theorem acknowledgeAll_ignoresTraffic (scope : PointEntry → Bool) : IgnoresTraffic (State.acknowledgeAll scope) :=
  fun fifo u s => settleLamps_ignoresTraffic.comp (.foldl acknowledge_ignoresTraffic (s.toAcknowledge scope))
    fifo u s

theorem standing_withTraffic (fifo : List Frame) (u : CommandUnit) (s : State) (c : Condition) :
    (s.withTraffic fifo u).standing c = s.standing c := by cases c <;> rfl

theorem relatch_ignoresTraffic (set : Byte) : IgnoresTraffic (State.relatch set) :=
  .foldl (fun c fifo u s => by
    dsimp only
    rw [standing_withTraffic]
    split <;> rfl) Condition.all

/-- Quality return (R58), from a state before the event that had the same traffic. -/
theorem qualityReturn_withTraffic (fifo : List Frame) (u : CommandUnit) (s before : State)
    (scope : PointEntry → Bool) : (s.withTraffic fifo u).qualityReturn (before.withTraffic fifo u) scope =
      (s.qualityReturn before scope).withTraffic fifo u :=
  IgnoresTraffic.foldl evaluatePoint_ignoresTraffic (s.returning before scope) fifo u s

theorem resync_ignoresTraffic : IgnoresTraffic State.resync := by
  intro fifo u s
  unfold State.resync
  rw [show (s.withTraffic fifo u).supervisor = s.supervisor from rfl]
  dsimp only
  split
  · rw [← settleLamps_ignoresTraffic, ← qualityReturn_withTraffic]
    rfl
  · rfl

/-! ### The broadcast-allowed commands (R176) -/

theorem takeSetTiming_ignoresTraffic (b : List Byte) : IgnoresTraffic fun s => (takeSetTiming b s).state := by
  intro fifo u s
  unfold takeSetTiming
  split <;> rfl

theorem takeSetCadence_ignoresTraffic (b : List Byte) : IgnoresTraffic fun s => (takeSetCadence b s).state := by
  intro fifo u s
  unfold takeSetCadence
  split <;> rfl

theorem takeHold_ignoresTraffic (b : List Byte) : IgnoresTraffic fun s => (takeHold b s).state := by
  intro fifo u s
  dsimp only
  unfold takeHold State.holdOff State.holdOn
  rw [show (s.withTraffic fifo u).lamps = s.lamps from rfl]
  repeat' split
  all_goals rfl

/-- RESTART empties the reply queue and the Command Unit's counts, and keeps the through FIFO (R170, R181). -/
theorem restartAll_withTraffic (fifo : List Frame) (u : CommandUnit) (s : State) :
    (s.withTraffic fifo u).restartAll = s.restartAll.withTraffic fifo ⟨[], 0, 0⟩ := by
  rw [restartAll_eq, restartAll_eq]
  rfl

/-- The codes of the broadcast-allowed commands (R176). -/
def broadcastCodes : List Byte := [0x03, 0x10, 0x11, 0x12, 0x42, 0x43, 0x52, 0x70]

theorem mem_broadcastCodes {r : CommandRow} (hr : r ∈ commandTable) (hb : r.broadcast = true) :
    r.code ∈ broadcastCodes := by
  have hcodes : ∀ r ∈ commandTable, r.broadcast = true → r.code ∈ broadcastCodes := by decide +kernel
  exact hcodes r hr hb

/-- A broadcast-allowed command does the same whatever traffic waits; RESTART empties the reply queue. -/
theorem run_withTraffic {code : Byte} (hcode : code ∈ broadcastCodes) {rule : CommandRule}
    (hrule : commandRule code = some rule) (tag : Byte) (params : List Byte) (fifo : List Frame)
    (u : CommandUnit) (s : State) : (rule.run tag params (s.withTraffic fifo u)).state =
      (rule.run tag params s).state.withTraffic fifo (if code = 0x03 then ⟨[], 0, 0⟩ else u) := by
  simp only [broadcastCodes, List.mem_cons, List.not_mem_nil, or_false] at hcode
  rcases hcode with rfl | rfl | rfl | rfl | rfl | rfl | rfl | rfl <;> cases hrule
  · exact restartAll_withTraffic fifo u s
  · exact takeSetTiming_ignoresTraffic params fifo u s
  · exact resync_ignoresTraffic fifo u s
  · exact takeSetCadence_ignoresTraffic params fifo u s
  · exact acknowledgeAll_ignoresTraffic anyEntry fifo u s
  · rfl
  · exact takeHold_ignoresTraffic params fifo u s
  · exact relatch_ignoresTraffic (params.getD 0 0) fifo u { s with reports := s.reports.clear (params.getD 0 0) }

/-! ### The addressed command beside the broadcast one -/

/-- The state in which the addressed command is taken: nothing in the Command Unit, and the reports and the
forward-drop count that the forwarding of the broadcast frame left. -/
def State.beforeAddressed (s forwarded : State) : State :=
  { s with
    commands := ⟨[], 0, 0⟩, reports := forwarded.reports
    port := { s.port with forwardDrops := forwarded.port.forwardDrops } }

section

variable {s : State} {n : Byte} (ha : AssignedAs s n) (hn : NoGrantDue s) (f : Frame)
include ha

/-- A forwarding differs from the reception of the addressed frame in the traffic alone. -/
theorem passedOn_eq_withTraffic : s.passedOn f =
    (s.beforeAddressed (s.passedOn f)).received.withTraffic (s.passedOn f).port.fifo s.commands := by
  rw [received_of_station (s := s.beforeAddressed (s.passedOn f)) ha.1]
  unfold State.passedOn
  split <;> rfl

include hn

/-- Where no grant is due, forwarding makes none due for the addressed command: a through FIFO with room makes
no record, and a full one waits for a frame in transmission. -/
theorem noGrantDue_beforeAddressed : NoGrantDue (s.beforeAddressed (s.passedOn f)) := by
  rcases hn with hsending | ⟨hfifo, hnone | ⟨-, hqueue⟩⟩
  · exact .inl hsending
  · exact nomatch hnone.symm.trans ha.1
  · have hreports : (s.passedOn f).reports = s.reports := by
      rw [State.passedOn, if_pos (by rw [hfifo]; decide)]
    exact .inr ⟨hfifo, .inr ⟨rfl, (congrArg Reports.queue hreports).trans hqueue⟩⟩

theorem addressed_beforeAddressed (tag : Byte) :
    Addressed (s.beforeAddressed (s.passedOn f)) ⟨n, 63, tag⟩ where
  assigned := ha
  fromHead := rfl
  room := Nat.zero_lt_succ 3
  noGrant := noGrantDue_beforeAddressed ha hn f

end

/-- The reply touches the Command Unit alone (R179). -/
theorem settle_withTraffic (a : Answer) (station tag code : Byte) (fifo : List Frame) (u : CommandUnit) :
    (a.settle station tag code).withTraffic fifo u = a.state.withTraffic fifo u := by
  unfold Answer.settle
  split <;> rfl

theorem takeBroadcast_of_rule {code : Byte} {rule : CommandRule} (hrule : commandRule code = some rule)
    (hb : rule.broadcast = true) (tag : Byte) (params : List Byte) (s : State) :
    s.takeBroadcast tag code params =
      if params.length = rule.length then (rule.run tag params s).state else s := by
  simp only [State.takeBroadcast, hrule, hb, true_and]

theorem execute_of_rule {code : Byte} {rule : CommandRule} (hrule : commandRule code = some rule)
    {params : List Byte} (hl : params.length = rule.length) (tag : Byte) (s : State) :
    s.execute tag code params = rule.run tag params s := by
  rw [State.execute, hrule]
  exact if_pos hl

/-- Settles O15: the broadcast command runs on the state of the addressed one but for the traffic, which its
run does not read. -/
theorem broadcastActsAsTheAddressedCommand : Obligations.BroadcastActsAsTheAddressedCommand := by
  intro r hr hb n tag params s u ha hn hu
  obtain ⟨rule, hrule, hlength, hbroadcast⟩ := commandRule_of_mem hr
  have hexec : exec (r.row ⟨0, 63, tag⟩ params) s =
      .next (if params.length = rule.length then (rule.run tag params u).state else u) := by
    rw [exec_commandRow hr, arriveCommand_broadcast ha hn, hu,
      takeBroadcast_of_rule hrule (hbroadcast.trans hb)]
    rfl
  rw [← hlength]
  refine ⟨fun hl => by rw [hexec, if_neg hl], fun hl => ?_⟩
  have haddressed : exec (r.row ⟨n, 63, tag⟩ params) (s.beforeAddressed u) =
      .next ((rule.run tag params (s.beforeAddressed u).received).settle n tag r.code) := by
    rw [hu, exec_commandRow hr, arriveCommand_addressed (addressed_beforeAddressed ha hn _ tag),
      execute_of_rule hrule hl]
  have htraffic : u = (s.beforeAddressed u).received.withTraffic u.port.fifo s.commands := by
    rw [hu]
    exact passedOn_eq_withTraffic ha _
  rw [if_pos hl] at hexec
  refine ⟨_, _, haddressed, hexec, ?_⟩
  calc (rule.run tag params u).state
    _ = (rule.run tag params (s.beforeAddressed u).received).state.withTraffic u.port.fifo
          (if r.code = 0x03 then ⟨[], 0, 0⟩ else s.commands) := by
      rw [← run_withTraffic (mem_broadcastCodes hr hb) hrule, ← htraffic]
    _ = _ := (settle_withTraffic _ n tag r.code _ _).symm

end Sys2Proof.Machine
end

section
/-! Condition commands (R190, R192 to R196): causes that occur in list order touch the reports alone, so that
CONDITION CLEAR and CONDITION RAISE are folds over the reports of the state that takes them. -/

namespace Sys2Proof.Machine

/-! ### Causes occurring in list order -/

/-- Causes that occur one after another, each where a test that the reports have no say in holds, touch the
reports alone, and the moment and the test stay those of the state at the beginning. -/
theorem foldl_occur_if {p : State → Condition → Bool}
    (hp : ∀ (s : State) (r : Reports) (c : Condition), p { s with reports := r } c = p s c) :
    ∀ (l : List Condition) (s : State), l.foldl (fun s c => if p s c then s.occur c else s) s =
      { s with reports := (l.filter (p s)).foldl (fun r c => r.caused s.stamp c) s.reports }
  | [], _ => rfl
  | c :: l, s => by
    rw [List.foldl_cons, List.filter_cons]
    cases hc : p s c with
    | false => exact foldl_occur_if hp l s
    | true =>
      have hsame : p (s.occur c) = p s := funext (hp s (s.occur c).reports)
      rw [if_pos rfl, if_pos rfl, List.foldl_cons, foldl_occur_if hp l (s.occur c), hsame, Reports.caused_eq]
      rfl

/-- CONDITION RAISE, in the words of R195. -/
theorem raiseConditions_eq (set : Byte) (s : State) : s.raiseConditions set = { s with
    reports := (Condition.all.filter fun c => c.isIn set).foldl (fun r c => r.caused s.stamp c) s.reports } :=
  foldl_occur_if (p := fun _ c => c.isIn set) (fun _ _ _ => rfl) Condition.all s

/-! ### Standing causes -/

/-- The conditions that have a standing cause, in list order (R193). -/
theorem filter_standing (s : State) (q : Condition → Bool) :
    Condition.all.filter (fun c => q c && s.standing c) =
      [.loopLost, .lampFault, .staleOutstation].filter fun c => q c && s.standing c := by
  simp [Condition.all, List.filter_cons, State.standing]

/-- Latching again, in the words of R193. -/
theorem relatch_eq (set : Byte) (s : State) : s.relatch set = { s with
    reports := ([.loopLost, .lampFault, .staleOutstation].filter fun c => c.isIn set && s.standing c).foldl
      (fun r c => r.caused s.stamp c) s.reports } := by
  rw [← filter_standing s fun c => c.isIn set]
  exact foldl_occur_if (p := fun s c => c.isIn set && s.standing c)
    (fun s r c => by rw [standing_withReports]) Condition.all s

/-- CONDITION CLEAR, in the words of R194: the causes that stand are those of the state that takes it. -/
theorem clearConditions_eq (set : Byte) (s : State) : s.clearConditions set = { s with
    reports := ([.loopLost, .lampFault, .staleOutstation].filter fun c => c.isIn set && s.standing c).foldl
      (fun r c => r.caused s.stamp c) (s.reports.clear set) } := by
  rw [State.clearConditions, relatch_eq]
  simp only [standing_withReports]
  rfl

/-! ### The commands -/

/-- Settles O44: the causes occur on the reports, cleared or as they stand, of the state that takes the
command; the mask is set. -/
theorem conditionCommandsActOnLatchesAndMask : Obligations.ConditionCommandsActOnLatchesAndMask := by
  intro h set s ha
  have hclear : exec (.conditionClear h [set]) s = .next ((s.received.clearConditions set).answered h 0x70
      [(s.received.clearConditions set).reports.latched]) :=
    arriveCommand_answered ha (code := 0x70) rfl rfl rfl
  have hraise : exec (.conditionRaise h [set]) s = .next ((s.received.raiseConditions set).answered h 0x71
      [(s.received.raiseConditions set).reports.latched]) :=
    arriveCommand_answered ha (code := 0x71) rfl rfl rfl
  have hmask : exec (.reportMask h [set]) s = .next ((s.received.setMask set).answered h 0x72 []) :=
    arriveCommand_answered ha (code := 0x72) rfl rfl rfl
  rw [clearConditions_eq] at hclear
  rw [raiseConditions_eq] at hraise
  refine ⟨_, _, _, hclear, hraise, hmask, rfl, heard_of_received ha rfl, answered_oneReply rfl, ?cleared,
    rfl, heard_of_received ha rfl, answered_oneReply rfl, rfl,
    rfl, heard_of_received ha rfl, answered_oneReply rfl⟩
  case cleared =>
    refine congrArg (List.foldl _ _) (List.filter_congr fun c hc => ?_)
    simp only [List.mem_cons, List.not_mem_nil, or_false] at hc
    rcases hc with rfl | rfl | rfl <;> rfl

end Sys2Proof.Machine
end

section
/-! The step while a command waits (4.5). -/

namespace Sys2Proof.Machine

/-- The branch of the step that a waiting command selects; the idle branch is O2's. -/
theorem step_of_pending_cons {s : State} {c : Instr} {rest : List Instr} (hq : s.pending = c :: rest) :
    step s = exec c (s.withPending rest) := by
  rw [step, hq]

/-- Settles O1: a queue with a front command selects the step's first branch, and setting the queue is the
update of the one field. -/
theorem stepTakesTheFrontCommand : Obligations.StepTakesTheFrontCommand := by
  intro c rest s hq
  calc step s = exec c (s.withPending rest) := step_of_pending_cons hq
    _ = exec c { s with pending := rest } := by rw [State.withPending]

end Sys2Proof.Machine
end
